-- ==== Sys2Proof/Word.lean ====
section
/-! DEFINITION. The words the part exchanges and the small fixed collections of like things
(one value per channel, per phase) that the chapters of the manual use throughout. -/

namespace Sys2Proof

/-- One byte on a master link or on the measurement link (R1, R176). -/
abbrev Byte := BitVec 8

/-- A two-byte field of a frame (R186). -/
abbrev Half := BitVec 16

/-- A four-byte field of a frame (R186). -/
abbrev Long := BitVec 32

/-- One thing for each of the four channels or lanes A, B, C and N (00_scope.md, "Channel"). -/
structure Quad (α : Type) where
  a : α
  b : α
  c : α
  n : α
deriving DecidableEq, Repr

/-- One thing for each of the three phases A, B and C. -/
structure Phases (α : Type) where
  a : α
  b : α
  c : α
deriving DecidableEq, Repr

end Sys2Proof
end

