-- ==== Sys2Proof/Syntax.lean ====
section
/-! DEFINITION. The commands of the part: one constructor for each row of spec/opcode_table.json. A request row carries
the link its frame came in on and the fields of its body as the wire carries them (R187), so that every value a
master can send, in range or out of it, is a command. -/

namespace Sys2Proof

/-- The three master links (R175). -/
inductive LinkId where
  | link1
  | link2
  | link3
deriving DecidableEq, Repr

/-- The three masters: LOCAL is `bay`, the bay local controller (00_scope.md). -/
inductive Master where
  | bay
  | control
  | crew
deriving DecidableEq, Repr

/-- The four stored settings groups (R96). -/
inductive GroupId where
  | g0
  | g1
  | g2
  | g3
deriving DecidableEq, Repr

/-- The five stored block slots (R92). -/
inductive SlotId where
  | slot1
  | slot2
  | slot3
  | slot4
  | slot5
deriving DecidableEq, Repr

/-- The eleven items of the stored image, in the order of R192's table. -/
inductive ItemId where
  | group (g : GroupId)
  | sections
  | season
  | slot (n : SlotId)
deriving DecidableEq, Repr

/-- What a cold start finds outside the processor (R196 to R198): how many times the end of start-up will find the
cold-start input still asserted before it is released, 0 where it is released by then (R196, log entry 7); the role each link's strap names, if any; the two contacts (true is MADE) and
energy-ready (true is HIGH); and the stored items whose memory has lost or altered what was last written (R193). -/
structure ColdReads where
  inputHolds : Nat
  strap1 : Option Master
  strap2 : Option Master
  strap3 : Option Master
  openMade : Bool
  closedMade : Bool
  energyHigh : Bool
  damaged : List ItemId
deriving DecidableEq, Repr

/-- The commands, in the order of the table. -/
inductive Instr where
  /-- COLD_START (R196). -/
  | coldStart (reads : ColdReads)
  /-- START_UP_COMPLETE (R199): start-up has run to its end. -/
  | startUpComplete
  /-- MEASUREMENT_FRAME (R1): the bytes received between two idle intervals of the measurement link. -/
  | measurementFrame (bytes : List Byte)
  /-- MISSING_FRAME_STEP (R4). -/
  | missingFrameStep
  /-- SOTF_WINDOW_EXPIRY (R28). -/
  | sotfWindowExpiry
  /-- COLD_LOAD_WINDOW_EXPIRY (R29). -/
  | coldLoadWindowExpiry
  /-- QUIET_END (R32). -/
  | quietEnd
  /-- HUNT_TEST_WINDOW_END (R139). -/
  | huntTestWindowEnd
  /-- CONTACT_CHANGE (R41): the two contacts as they stand after the change, true for MADE. -/
  | contactChange (openMade closedMade : Bool)
  /-- TRAVEL_TIMER_EXPIRY (R43). -/
  | travelTimerExpiry
  /-- DISCREPANCY_TIMER_EXPIRY (R43). -/
  | discrepancyTimerExpiry
  /-- ENERGY_READY_CHANGE (R45): the input after the change, true for HIGH. -/
  | energyReadyChange (high : Bool)
  /-- TRIP_ORDER_TIMEOUT (R48). -/
  | tripOrderTimeout
  /-- CLOSE_ORDER_TIMEOUT (R50). -/
  | closeOrderTimeout
  /-- DEAD_TIME_EXPIRY (R61). -/
  | deadTimeExpiry
  /-- CLOSE_WAIT_EXPIRY (R62). -/
  | closeWaitExpiry
  /-- RECLAIM_EXPIRY (R65). -/
  | reclaimExpiry
  /-- BLOCK_EXPIRY (R88): the OPERATOR entry with this owner and reason, which name it (R80). -/
  | blockExpiry (owner : Master) (reason : Byte)
  /-- DECLARATION_EXPIRY (R110). -/
  | declarationExpiry
  /-- SILENCE_TIMER_EXPIRY (R112). -/
  | silenceTimerExpiry
  /-- ORDER_TIMER_EXPIRY (R136). -/
  | orderTimerExpiry
  /-- HUNT_CLOSE_WAIT_EXPIRY (R137). -/
  | huntCloseWaitExpiry
  /-- HOLDOFF_EXPIRY (R167): of one master's holdoff timer. -/
  | holdoffExpiry (m : Master)
  /-- BAD_LENGTH_BYTE (R176). -/
  | badLengthByte (k : LinkId) (byte : Byte)
  /-- GAP_TIMER_EXPIRY (R176). -/
  | gapTimerExpiry (k : LinkId)
  /-- QUIET_TIMER_EXPIRY (R176). -/
  | quietTimerExpiry (k : LinkId)
  /-- REQUEST_FRAME (R176, R177): the byte that completes the frame in progress. -/
  | requestFrame (k : LinkId) (byte : Byte)
  /-- ANSWER_SENT (R177). -/
  | answerSent (k : LinkId)
  /-- STORE_WRITE_COMPLETE (R194). -/
  | storeWriteComplete
  /-- STATUS (R183), code 1. -/
  | status (k : LinkId)
  /-- READ MEASUREMENTS (R15), code 2. -/
  | readMeasurements (k : LinkId)
  /-- CLEAR QUALITY (R9), code 3. -/
  | clearQuality (k : LinkId)
  /-- READ NOTICE (R165), code 4. -/
  | readNotice (k : LinkId)
  /-- SET NOTICE MASK (R168), code 5. -/
  | setNoticeMask (k : LinkId) (mask : Half)
  /-- SET HOLDOFF (R170), code 6. -/
  | setHoldoff (k : LinkId) (ms : Half)
  /-- TRIP (R58), code 7. -/
  | trip (k : LinkId)
  /-- CLOSE (R66), code 8. -/
  | close (k : LinkId)
  /-- RESET MECHANISM (R53), code 9. -/
  | resetMechanism (k : LinkId)
  /-- PLACE BLOCK (R82), code 10. -/
  | placeBlock (k : LinkId) (kind reason : Byte) (expiry : Half)
  /-- REMOVE BLOCK (R86), code 11. -/
  | removeBlock (k : LinkId) (kind owner reason : Byte)
  /-- READ BLOCKS (R91), code 12. -/
  | readBlocks (k : LinkId)
  /-- READ SETTING (R106), code 13. -/
  | readSetting (k : LinkId) (target field : Byte)
  /-- WRITE SETTING (R99), code 14. -/
  | writeSetting (k : LinkId) (target field : Byte) (value : Long)
  /-- CONFIRM GROUP (R102), code 15. -/
  | confirmGroup (k : LinkId) (group : Byte)
  /-- READ GROUP STATE (R106), code 16. -/
  | readGroupState (k : LinkId)
  /-- SET SEASON (R108), code 17. -/
  | setSeason (k : LinkId) (season : Byte)
  /-- DECLARE FIRE LEVEL (R109), code 18. -/
  | declareFireLevel (k : LinkId) (level hours : Byte)
  /-- RAISE LOCAL LEVEL (R111), code 19. -/
  | raiseLocalLevel (k : LinkId) (level : Byte)
  /-- CLEAR LOCAL LEVEL (R111), code 20. -/
  | clearLocalLevel (k : LinkId)
  /-- WRITE SECTION (R123), code 21. -/
  | writeSection (k : LinkId) (target first : Byte) (second : Half)
  /-- CONFIRM SECTIONS (R124), code 22. -/
  | confirmSections (k : LinkId)
  /-- READ SECTIONS (R125), code 23. -/
  | readSections (k : LinkId)
  /-- START HUNT (R128), code 24. -/
  | startHunt (k : LinkId)
  /-- ABORT HUNT (R149), code 25. -/
  | abortHunt (k : LinkId)
  /-- READ HUNT ORDER (R133), code 26. -/
  | readHuntOrder (k : LinkId)
  /-- REPORT SWITCH (R126), code 27. -/
  | reportSwitch (k : LinkId) (ident state : Byte) (reference : Half)
  /-- READ HUNT (R148), code 28. -/
  | readHunt (k : LinkId)
  /-- READ RECORD (R158), code 29. -/
  | readRecord (k : LinkId) (index : Byte)
  /-- RESET LINK (R184), code 30. -/
  | resetLink (k : LinkId)
  /-- LINK_BYTE_RECEIVED (R176). -/
  | linkByteReceived (k : LinkId) (byte : Byte)
deriving DecidableEq, Repr

end Sys2Proof
end

