-- ==== Sys2Proof/Decode.lean ====
section
/-! DEFINITION. The command that a word spells. No row of spec/opcode_table.json gives bits: a command is an event, or a
request whose code and body the link carries as bytes (R178, R187), which Machine/Operands.lean reads. -/

namespace Sys2Proof

/-- No word spells a command (DESIGN CHOICE, log entry 27). -/
def decodeTableWord (_nbits _w : Nat) : Option Instr := none

end Sys2Proof
end

