-- ==== Sys2Proof/Machine/State.lean ====
section
/-! DEFINITION. Everything the spec gives the part to hold, block by block (00_scope.md, "Blocks of the part"), as plain data,
and the part right after a cold start. Times are milliseconds on the part's clock: a timer that runs holds the clock
value at which it ends, a timer that is stopped holds nothing (DESIGN CHOICE, log entry 2). -/

namespace Sys2Proof.Machine

/-! ## Measurement Intake -/

/-- The kind of a frame step (R3, R4). -/
inductive StepKind where
  | frame
  | missing
deriving DecidableEq, Repr

/-- The class a channel takes on a step (R5). -/
inductive ChannelClass where
  | absent
  | clipped
  | zero
  | normal
deriving DecidableEq, Repr

/-- One channel entry of a measurement frame (R1). -/
structure Reading where
  magnitude : Nat
  valid : Bool
deriving DecidableEq, Repr

/-- The contents of a ten-byte measurement frame (R1, R187). -/
structure FrameRecord where
  seq : Byte
  live : Bool
  readings : Quad Reading
deriving DecidableEq, Repr

/-- What Intake keeps of one channel (R5, R6). -/
structure Channel where
  cls : Option ChannelClass
  held : Option Nat
  hold : Nat
  available : Bool
  value : Option Nat
deriving DecidableEq, Repr

/-- The measurement state (R12, R14). -/
inductive MeasureState where
  | good
  | lost
deriving DecidableEq, Repr

/-- The state of Intake (01_measurement_intake.md). `absentSeen` and `clippedSeen` are the eight quality flags (R8). -/
structure Intake where
  latest : Option FrameRecord
  reference : Option Byte
  frameDue : Option Nat
  lastKind : Option StepKind
  channels : Quad Channel
  sourceLive : Bool
  liveHold : Nat
  absentSeen : Quad Bool
  clippedSeen : Quad Bool
  loss : Nat
  state : MeasureState
deriving DecidableEq, Repr

/-! ## Protection Elements -/

/-- The kind a close order names to Elements (R19). -/
inductive CloseKind where
  | none
  | automatic
  | manual
  | huntRestore
  | huntTest
deriving DecidableEq, Repr

/-- The mode of Elements (R33). -/
inductive Mode where
  | normal
  | huntTest
deriving DecidableEq, Repr

/-- The peak of a channel within an episode (R31). -/
structure Peak where
  magnitude : Nat
  clipped : Bool
deriving DecidableEq, Repr

/-- An open pickup episode (R31). -/
structure Episode where
  start : Nat
  steps : Nat
  quiet : Nat
  peaks : Quad (Option Peak)
deriving DecidableEq, Repr

/-- The state of Elements (02). A window that runs holds its steps remaining. -/
structure Elements where
  acc : Quad Nat
  highset : Phases Nat
  sef : Nat
  mask : Quad Bool
  sefPicked : Bool
  episode : Option Episode
  sotf : Option Nat
  coldLoad : Option Nat
  closeKind : CloseKind
  mode : Mode
  openCount : Nat
deriving DecidableEq, Repr

/-- A set of trip causes (R36, R186). -/
structure Causes where
  phA : Bool := false
  phB : Bool := false
  phC : Bool := false
  highset : Bool := false
  earth : Bool := false
  sef : Bool := false
  sotf : Bool := false
  manual : Bool := false
  measureLoss : Bool := false
deriving DecidableEq, Repr

/-- A trip decision of Elements (R36). -/
structure Decision where
  causes : Causes
  highsetLanes : Phases Bool
  sotfLanes : Quad Bool
deriving DecidableEq, Repr

/-! ## Breaker Mechanism Interface -/

/-- The breaker position (R41). -/
inductive Position where
  | opened
  | closed
  | travel
  | discrepant
deriving DecidableEq, Repr

/-- The order in progress at Mechanism (R47, R49). -/
inductive Order where
  | none
  | trip
  | close
deriving DecidableEq, Repr

/-- Who placed the order in progress (R47). -/
inductive Placer where
  | sequencer
  | hunt
deriving DecidableEq, Repr

/-- The state of Mechanism (03). The position is computed from the two contacts (`true` is MADE). -/
structure Mechanism where
  openMade : Bool
  closedMade : Bool
  settled : Option Position
  travelTimer : Option Nat
  discrepancyTimer : Option Nat
  energyHigh : Bool
  order : Order
  placer : Option Placer
  orderTimer : Option Nat
  tripOutput : Bool
  closeOutput : Bool
deriving DecidableEq, Repr

/-- Mechanism's answer to a trip order (R47). -/
inductive TripAnswer where
  | accepted
  | alreadyOpen
  | inProgress
deriving DecidableEq, Repr

/-- The reasons of WRONG_STATE answers and of Mechanism's refusals, in the order of R186's codes 1 to 14. -/
inductive Why where
  | orderInProgress
  | positionUnsettled
  | notLockout
  | huntRunning
  | hotLine
  | mechanismBlocked
  | measureLost
  | energyLow
  | notOpen
  | tableNotReady
  | switchNotClosed
  | fireBan
  | controlSilent
  | notRunning
deriving DecidableEq, Repr

/-! ## Reclose Sequencer -/

/-- The nine sequencer states (04). -/
inductive SeqState where
  | closed
  | tripping
  | deadTime
  | closeWait
  | closing
  | reclaim
  | lockout
  | huntHeld
  | failed
deriving DecidableEq, Repr

/-- The purpose of the Sequencer's close order (R63, R66). -/
inductive ClosePurpose where
  | none
  | automatic
  | manual
deriving DecidableEq, Repr

/-- A forced lockout (R55). -/
inductive Forced where
  | manualTrip
  | measureLoss
  | closeOntoFault
deriving DecidableEq, Repr

/-- The lockout reasons, in the order of R186's codes. -/
inductive LockoutReason where
  | manualTrip
  | measureLoss
  | closeOntoFault
  | tripCause
  | shotsExhausted
  | blocked
  | closeWaitExpired
  | closeRefused
  | settings
  | fireBan
  | externalOpen
  | mechanismReset
  | huntEnd
  | start
deriving DecidableEq, Repr

/-- Where a trip comes from (R55, R152). -/
inductive Origin where
  | elements
  | manual
  | measureLoss
  | hunt
deriving DecidableEq, Repr

/-- The last trip of the Sequencer (R55). -/
structure LastTrip where
  origin : Origin
  requester : Option Master
  causes : Causes
  highsetLanes : Phases Bool
  sotfLanes : Quad Bool
deriving DecidableEq, Repr

/-- The state of the Sequencer (04). -/
structure Sequencer where
  state : SeqState
  shotsUsed : Nat
  pendingShot : Option Nat
  purpose : ClosePurpose
  forced : Option Forced
  lastTrip : Option LastTrip
  openingMoment : Option Nat
  closeMoment : Option Nat
  deadTimer : Option Nat
  closeWaitTimer : Option Nat
  reclaimTimer : Option Nat
  lockoutReason : Option LockoutReason
  failureNoted : Bool
deriving DecidableEq, Repr

/-! ## Reclose Blocks -/

/-- The kinds of block (R79). -/
inductive BlockKind where
  | hotLine
  | operator
  | hunt
  | measure
  | mechanism
deriving DecidableEq, Repr

/-- The owner of a block (R79). -/
inductive Owner where
  | master (m : Master)
  | part
deriving DecidableEq, Repr

/-- An entry of the block list (R79): the expiry in minutes, the uptime of the expiry moment, the stored slot (R92). -/
structure BlockEntry where
  kind : BlockKind
  owner : Owner
  reason : Byte
  placedAt : Nat
  expiry : Option Nat
  moment : Option Nat
  slot : Option SlotId
deriving DecidableEq, Repr

/-! ## Settings and Posture -/

/-- The record of a settings group (R96), in the order of its field numbers. An absent field is `none`. -/
structure Settings where
  phasePickup : Option Nat
  phaseCurve : Option Nat
  phaseTms : Option Nat
  highsetLevel : Option Nat
  highsetDelay : Option Nat
  earthPickup : Option Nat
  earthCurve : Option Nat
  earthTms : Option Nat
  sefPickup : Option Nat
  sefDelay : Option Nat
  shots : Option Nat
  deadTime1 : Option Nat
  deadTime2 : Option Nat
  deadTime3 : Option Nat
  reclaimTime : Option Nat
  coldLoadMultiplier : Option Nat
  coldLoadThreshold : Option Nat
  coldLoadDuration : Option Nat
  sotfWindow : Option Nat
  autoHunt : Option Nat
  huntTestLimit : Option Nat
deriving DecidableEq, Repr

/-- The state of a settings group or of the section table (R98, R124). -/
inductive EditState where
  | empty
  | editing
  | ready
deriving DecidableEq, Repr

/-- A settings group (R98). -/
structure Group where
  state : EditState
  working : Option Settings
  image : Option Settings
deriving DecidableEq, Repr

/-- One thing for each of the four groups. -/
structure FourGroups (α : Type) where
  g0 : α
  g1 : α
  g2 : α
  g3 : α
deriving DecidableEq, Repr

/-- The season (R108). -/
inductive Season where
  | offSeason
  | fireSeason
deriving DecidableEq, Repr

/-- A fire level (R114). -/
inductive Level where
  | none
  | elevated
  | ban
deriving DecidableEq, Repr

/-- The active settings (R116): a group or FALLBACK. -/
inductive Active where
  | group (g : GroupId)
  | fallback
deriving DecidableEq, Repr

/-- The state of Posture (06). The declaration's expiry moment is an uptime in seconds (R109). -/
structure Posture where
  groups : FourGroups Group
  season : Season
  declared : Level
  declaredExpiry : Option Nat
  localRaise : Level
  silent : Bool
  silenceTimer : Option Nat
  silenceMinutes : Nat
  hotLinePresent : Bool
  level : Level
  wanted : GroupId
  active : Active
deriving DecidableEq, Repr

/-! ## Earth-Fault Hunt -/

/-- The believed state of a switch (R122). -/
inductive Believed where
  | closed
  | opened
  | unknown
deriving DecidableEq, Repr

/-- One position of the section table (R122). -/
structure SwitchEntry where
  ident : Option Nat
  operable : Bool
  believed : Believed
deriving DecidableEq, Repr

/-- The stored part of one position (R192). -/
structure SwitchImage where
  ident : Option Nat
  operable : Bool
deriving DecidableEq, Repr

/-- A confirmed section table (R124, R192): n, the order timeout, positions 1 to 15. -/
structure TableImage where
  n : Nat
  timeout : Nat
  switches : List SwitchImage
deriving DecidableEq, Repr

/-- The section table (R122). `switches` holds positions 1 to 15, the first at the head. -/
structure SectionTable where
  state : EditState
  n : Option Nat
  timeout : Option Nat
  switches : List SwitchEntry
  image : Option TableImage
deriving DecidableEq, Repr

/-- The hunt states (R127). -/
inductive HuntState where
  | idle
  | ordering
  | testing
  | testTrip
  | restoring
  | concluded
  | abandoned
deriving DecidableEq, Repr

/-- Who started a hunt (R128, R129). -/
inductive StartedBy where
  | bay
  | control
  | automatic
deriving DecidableEq, Repr

/-- The action of a switch order (R132). -/
inductive SwitchAction where
  | openSwitch
  | closeSwitch
deriving DecidableEq, Repr

/-- A switch order (R132). -/
structure SwitchOrder where
  number : Byte
  position : Nat
  ident : Nat
  action : SwitchAction
deriving DecidableEq, Repr

/-- The close due (R137). -/
inductive CloseDue where
  | none
  | test
  | restore
deriving DecidableEq, Repr

/-- The reasons of a hunt's end, in the order of R186's codes. -/
inductive HuntReason where
  | sectionFound
  | limitReached
  | noCandidate
  | aborted
  | manual
  | hotLine
  | fireBan
  | measureLost
  | mechanism
  | external
  | switchFailed
  | switchDisturbed
  | orderTimeout
  | positionNotOpen
  | switchNotOperable
  | closeRefused
  | closeWaitExpired
  | otherFault
  | restoreTrip
deriving DecidableEq, Repr

/-- The outcome of a hunt (R148). -/
inductive HuntOutcome where
  | concludedSection
  | concludedRange
  | abandoned
deriving DecidableEq, Repr

/-- The detail of a hunt reason (R148): Mechanism's refusal reason, or the requesting master. -/
inductive HuntDetail where
  | refusal (why : Why)
  | master (m : Master)
deriving DecidableEq, Repr

/-- A set of switch positions 1 to 15: position k in bit k − 1 (R190). -/
abbrev PositionSet := BitVec 15

/-- The last hunt result (R148). -/
structure HuntResult where
  outcome : HuntOutcome
  reason : HuntReason
  detail : Option HuntDetail
  startedBy : StartedBy
  lo : Nat
  hi : Nat
  testsUsed : Nat
  testLimit : Nat
  ordersIssued : Nat
  unusable : PositionSet
deriving DecidableEq, Repr

/-- The state of the Hunt, the section table apart (07). -/
structure Hunt where
  state : HuntState
  startedBy : StartedBy
  lo : Nat
  hi : Nat
  probe : Option Nat
  doubtfulSeen : Bool
  testsUsed : Nat
  testLimit : Option Nat
  testPickup : Option Nat
  unusable : PositionSet
  outstanding : Option SwitchOrder
  orderTimer : Option Nat
  nextOrder : Byte
  ordersIssued : Nat
  closeDue : CloseDue
  closeWaitTimer : Option Nat
  settleCount : Nat
  windowCount : Nat
  windowSum : Nat
  windowUnavailable : Bool
  handBackPending : Bool
  restoreReason : HuntReason
  result : Option HuntResult
deriving DecidableEq, Repr

/-! ## Fault Records -/

/-- The opening outcome of a record (R156). -/
inductive OpeningOutcome where
  | pending
  | opened
  | tripFail
deriving DecidableEq, Repr

/-- A fault record (R152). -/
structure FaultRecord where
  number : Nat
  uptime : Nat
  origin : Origin
  causes : Causes
  requester : Option Master
  highsetLanes : Phases Bool
  sotfLanes : Quad Bool
  shot : Nat
  active : Active
  level : Level
  peaks : Quad (Option Peak)
  steps : Option Nat
  outcome : OpeningOutcome
deriving DecidableEq, Repr

/-- The state of Records (08): the ring, newest first, the next record number, the pending record's number. -/
structure Records where
  ring : List FaultRecord
  next : Nat
  pendingRecord : Option Nat
deriving DecidableEq, Repr

/-! ## Notices and Attention Lines -/

/-- The thirteen notice kinds, in the order of their priorities (R161). -/
inductive NoticeKind where
  | trip
  | mechanismFail
  | lockout
  | measureLoss
  | huntOrder
  | huntEnd
  | posture
  | blocks
  | recloseOk
  | record
  | settings
  | linkFault
  | ready
deriving DecidableEq, Repr

/-- A set of notice kinds: the kind of priority k in bit k (R186). -/
abbrev KindSet := BitVec 13

/-- The notice state of one master (R162). -/
structure MasterNotices where
  latched : KindSet
  mask : KindSet
  holdoff : Nat
  holdoffTimer : Option Nat
  line : Bool
deriving DecidableEq, Repr

/-- One thing for each master. -/
structure PerMaster (α : Type) where
  bay : α
  control : α
  crew : α
deriving DecidableEq, Repr

/-! ## Master Links -/

/-- The role of a link (R175). -/
inductive Role where
  | held (m : Master)
  | disabled
deriving DecidableEq, Repr

/-- The receive state of a link (R176). -/
inductive Receive where
  | quietWait
  | idle
  | inFrame
deriving DecidableEq, Repr

/-- An answer: its frame, fixed when the request was taken, and whether it is held until a Store write completes (R182). -/
structure Answer where
  frame : List Byte
  held : Bool
deriving DecidableEq, Repr

/-- The state of one link (10). `busy` is the service state BUSY; `inHand` and `waiting` are frames as code and body. -/
structure Link where
  role : Role
  receive : Receive
  length : Nat
  bytes : List Byte
  gapTimer : Option Nat
  quietTimer : Option Nat
  busy : Bool
  inHand : Option (List Byte)
  answer : Option Answer
  waiting : Option (List Byte)
  health : Nat
  faulty : Bool
deriving DecidableEq, Repr

/-- One thing for each link. -/
structure PerLink (α : Type) where
  link1 : α
  link2 : α
  link3 : α
deriving DecidableEq, Repr

/-! ## Stored Image -/

/-- A stored item: its contents, and whether its validity mark agrees with them (R193).
(DESIGN CHOICE, log entry 24.) -/
structure Item (α : Type) where
  contents : α
  valid : Bool
deriving DecidableEq, Repr

/-- What a block slot holds of an entry (R92). -/
structure SlotEntry where
  kind : BlockKind
  owner : Owner
  reason : Byte
deriving DecidableEq, Repr

/-- One thing for each block slot. -/
structure PerSlot (α : Type) where
  slot1 : α
  slot2 : α
  slot3 : α
  slot4 : α
  slot5 : α
deriving DecidableEq, Repr

/-- What a queued write will put into the image (R194): `none` is EMPTY. -/
inductive Write where
  | group (g : GroupId) (image : Option Settings)
  | sections (image : Option TableImage)
  | season (season : Season)
  | slot (n : SlotId) (entry : Option SlotEntry)
deriving DecidableEq, Repr

/-- A queued write and the link waiting on it (R194). -/
structure QueuedWrite where
  write : Write
  link : Option LinkId
deriving DecidableEq, Repr

/-- The state of the Store (11). The write in progress, if any, is the oldest of the queue. -/
structure Store where
  groups : FourGroups (Item (Option Settings))
  sections : Item (Option TableImage)
  season : Item Season
  slots : PerSlot (Item (Option SlotEntry))
  queue : List QueuedWrite
  writing : Bool
  writeTimer : Option Nat
deriving DecidableEq, Repr

/-! ## The part -/

/-- The whole part, all but the queue of commands. `started` says that start-up is complete (R199); `coldInput` is the
cold-start input, asserted while it is not 0: how many times the end of start-up finds it so (R196, log entry 7); `clock` is in
milliseconds from the completion of start-up. -/
structure Part where
  started : Bool
  coldInput : Nat
  clock : Nat
  intake : Intake
  elements : Elements
  mech : Mechanism
  seq : Sequencer
  entries : List BlockEntry
  posture : Posture
  table : SectionTable
  hunt : Hunt
  records : Records
  notices : PerMaster MasterNotices
  links : PerLink Link
  store : Store
deriving DecidableEq, Repr

/-- The part and the commands that wait for it, first in, first out (DESIGN CHOICE, log entry 1). -/
structure State extends Part where
  pending : List Instr
deriving DecidableEq, Repr

/-- The part has no fault: no event stops it (INVENTORY.md, "Faults"). Nobody raises one, which is safe. -/
inductive Fault where
deriving DecidableEq, Repr

/-- The refusals of the model. -/
inductive Refusal where
  /-- Raised by `exec` alone, for a command that has no meaning yet; no arm of this model raises it. Safe. -/
  | notModelled (mnemonic : String)
deriving DecidableEq, Repr

/-- A part fresh from its maker (R192, "Value at delivery"), at the end of start-up and before its completion (R16, R40,
R54, R78, R95, R121, R150, R160, R173, R185, R200). The inputs read are the DESIGN CHOICE of log entry 8: straps LOCAL, CONTROL,
CREW, the breaker OPEN, energy-ready LOW. Items no rule gives a value are the DESIGN CHOICE of log entry 9, and the operable
flags and order timeout of the EMPTY table are the DESIGN CHOICE of log entry 32. -/
def Part.reset : Part where
  started := false
  coldInput := 0
  clock := 0
  intake :=
    let ch : Channel := ⟨none, none, 0, false, none⟩
    { latest := none, reference := none, frameDue := none, lastKind := none, channels := ⟨ch, ch, ch, ch⟩,
      sourceLive := false, liveHold := 0, absentSeen := ⟨false, false, false, false⟩,
      clippedSeen := ⟨false, false, false, false⟩, loss := 32, state := .lost }
  elements :=
    { acc := ⟨0, 0, 0, 0⟩, highset := ⟨0, 0, 0⟩, sef := 0, mask := ⟨false, false, false, false⟩, sefPicked := false,
      episode := none, sotf := none, coldLoad := none, closeKind := .none, mode := .normal, openCount := 360000 }
  mech :=
    { openMade := true, closedMade := false, settled := some .opened, travelTimer := none, discrepancyTimer := none,
      energyHigh := false, order := .none, placer := none, orderTimer := none, tripOutput := false, closeOutput := false }
  seq :=
    { state := .lockout, shotsUsed := 0, pendingShot := none, purpose := .none, forced := none, lastTrip := none,
      openingMoment := none, closeMoment := none, deadTimer := none, closeWaitTimer := none, reclaimTimer := none,
      lockoutReason := some .start, failureNoted := false }
  entries := [⟨.measure, .part, 0, 0, none, none, none⟩]
  posture :=
    let g : Group := ⟨.empty, none, none⟩
    { groups := ⟨g, g, g, g⟩, season := .fireSeason, declared := .none, declaredExpiry := none, localRaise := .none,
      silent := true, silenceTimer := none, silenceMinutes := 30, hotLinePresent := false, level := .elevated,
      wanted := .g1, active := .fallback }
  table :=
    { state := .empty, n := none, timeout := none, switches := List.replicate 15 ⟨none, false, .unknown⟩, image := none }
  hunt :=
    { state := .idle, startedBy := .bay, lo := 0, hi := 0, probe := none, doubtfulSeen := false, testsUsed := 0,
      testLimit := none, testPickup := none, unusable := 0, outstanding := none, orderTimer := none, nextOrder := 0,
      ordersIssued := 0, closeDue := .none, closeWaitTimer := none, settleCount := 0, windowCount := 0, windowSum := 0,
      windowUnavailable := false, handBackPending := false, restoreReason := .sectionFound, result := none }
  records := { ring := [], next := 1, pendingRecord := none }
  notices :=
    let m : MasterNotices := { latched := 4096, mask := 0, holdoff := 20, holdoffTimer := none, line := false }
    ⟨m, m, m⟩
  links :=
    let l (r : Role) : Link :=
      { role := r, receive := .quietWait, length := 0, bytes := [], gapTimer := none, quietTimer := none, busy := false,
        inHand := none, answer := none, waiting := none, health := 0, faulty := false }
    ⟨l (.held .bay), l (.held .control), l (.held .crew)⟩
  store :=
    { groups := ⟨⟨none, true⟩, ⟨none, true⟩, ⟨none, true⟩, ⟨none, true⟩⟩, sections := ⟨none, true⟩,
      season := ⟨.fireSeason, true⟩, slots := ⟨⟨none, true⟩, ⟨none, true⟩, ⟨none, true⟩, ⟨none, true⟩, ⟨none, true⟩⟩,
      queue := [], writing := false, writeTimer := none }

/-- The machine right after reset: `Part.reset` with no command waiting. -/
def State.reset : State := { toPart := Part.reset, pending := [] }

end Sys2Proof.Machine
end

