-- ==== Sys2Proof/Machine/Operands.lean ====
section
/-! DEFINITION. The operand forms: the numbers by which the wire carries names and sets (R186), the request frames with
their bodies (R178's table, R187) read and written, and the rights table (R181). -/

namespace Sys2Proof.Machine

/-! ## Bytes -/

/-- The low eight bits of a number as a byte. -/
def byte (v : Nat) : Byte := BitVec.ofNat 8 v

/-- Two bytes, least significant first (R186). -/
def bytes2 (v : Nat) : List Byte := [byte v, byte (v / 256)]

/-- Four bytes, least significant first (R186). -/
def bytes4 (v : Nat) : List Byte := [byte v, byte (v / 256), byte (v / 65536), byte (v / 16777216)]

/-- A one-byte value or "none", carried as 255 (R186). -/
def byteOrNone (v : Option Nat) : Byte := byte (v.getD 255)

/-- A two-byte value or "none", carried as 65535 (R186). -/
def bytes2OrNone (v : Option Nat) : List Byte := bytes2 (v.getD 65535)

/-- A four-byte value or "none", carried as 4,294,967,295 (R186). -/
def bytes4OrNone (v : Option Nat) : List Byte := bytes4 (v.getD 4294967295)

/-- A flag in a byte. -/
def flag (b : Bool) : Nat := if b then 1 else 0

/-- Two bytes of a frame, the first least significant (R186). -/
def joinHalf (b0 b1 : Byte) : Half := b1 ++ b0

/-- Four bytes of a frame, the first least significant (R186). -/
def joinLong (b0 b1 b2 b3 : Byte) : Long := b3 ++ (b2 ++ (b1 ++ b0 : BitVec 16) : BitVec 24)

/-- The two bytes of a half, least significant first (R186). -/
def splitHalf (h : Half) : List Byte := [h.extractLsb' 0 8, h.extractLsb' 8 8]

/-- The four bytes of a long, least significant first (R186). -/
def splitLong (l : Long) : List Byte :=
  [l.extractLsb' 0 8, l.extractLsb' 8 8, l.extractLsb' 16 8, l.extractLsb' 24 8]

/-! ## Numbers of names: from 0 in the order of the owning chapter (R186) -/

/-- LOCAL 0, CONTROL 1, CREW 2. -/
def Master.code : Master → Nat
  | .bay => 0
  | .control => 1
  | .crew => 2

/-- LOCAL 0, CONTROL 1, CREW 2, PART 3. -/
def Owner.code : Owner → Nat
  | .master m => Master.code m
  | .part => 3

/-- The owner a byte names, if any. -/
def ownerOf : Nat → Option Owner
  | 0 => some (.master .bay)
  | 1 => some (.master .control)
  | 2 => some (.master .crew)
  | 3 => some .part
  | _ => none

/-- HOT_LINE 0 to MECHANISM 4. -/
def BlockKind.code : BlockKind → Nat
  | .hotLine => 0
  | .operator => 1
  | .hunt => 2
  | .measure => 3
  | .mechanism => 4

/-- The block kind a byte names, if any. -/
def blockKindOf : Nat → Option BlockKind
  | 0 => some .hotLine
  | 1 => some .operator
  | 2 => some .hunt
  | 3 => some .measure
  | 4 => some .mechanism
  | _ => none

/-- G0 0 to G3 3. -/
def GroupId.code : GroupId → Nat
  | .g0 => 0
  | .g1 => 1
  | .g2 => 2
  | .g3 => 3

/-- The group a byte names, if any. -/
def groupOf : Nat → Option GroupId
  | 0 => some .g0
  | 1 => some .g1
  | 2 => some .g2
  | 3 => some .g3
  | _ => none

/-- G0 0 to G3 3, FALLBACK 4. -/
def Active.code : Active → Nat
  | .group g => GroupId.code g
  | .fallback => 4

/-- A target of READ SETTING and WRITE SETTING (R99, R106). -/
inductive Target where
  | group (g : GroupId)
  | fallback
  | posture
deriving DecidableEq, Repr

/-- The target a byte names: G0 0 to G3 3, FALLBACK 4, POSTURE 5. -/
def targetOf (v : Nat) : Option Target :=
  match v with
  | 4 => some .fallback
  | 5 => some .posture
  | _ => (groupOf v).map .group

/-- EMPTY 0, EDITING 1, READY 2. -/
def EditState.code : EditState → Nat
  | .empty => 0
  | .editing => 1
  | .ready => 2

/-- OFF_SEASON 0, FIRE_SEASON 1. -/
def Season.code : Season → Nat
  | .offSeason => 0
  | .fireSeason => 1

/-- The season a byte names, if any. -/
def seasonOf : Nat → Option Season
  | 0 => some .offSeason
  | 1 => some .fireSeason
  | _ => none

/-- NONE 0, ELEVATED 1, BAN 2. -/
def Level.code : Level → Nat
  | .none => 0
  | .elevated => 1
  | .ban => 2

/-- The fire level a byte names, if any. -/
def levelOf : Nat → Option Level
  | 0 => some .none
  | 1 => some .elevated
  | 2 => some .ban
  | _ => none

/-- OPEN 0, CLOSED 1, TRAVEL 2, DISCREPANT 3. -/
def Position.code : Position → Nat
  | .opened => 0
  | .closed => 1
  | .travel => 2
  | .discrepant => 3

/-- CLOSED 0 to FAILED 8. -/
def SeqState.code : SeqState → Nat
  | .closed => 0
  | .tripping => 1
  | .deadTime => 2
  | .closeWait => 3
  | .closing => 4
  | .reclaim => 5
  | .lockout => 6
  | .huntHeld => 7
  | .failed => 8

/-- NONE 0, AUTOMATIC 1, MANUAL 2. -/
def ClosePurpose.code : ClosePurpose → Nat
  | .none => 0
  | .automatic => 1
  | .manual => 2

/-- ELEMENTS 0, MANUAL 1, MEASURE_LOSS 2, HUNT 3 (R188, R189). -/
def Origin.code : Origin → Nat
  | .elements => 0
  | .manual => 1
  | .measureLoss => 2
  | .hunt => 3

/-- The codes of R186's table. -/
def Why.code : Why → Nat
  | .orderInProgress => 1
  | .positionUnsettled => 2
  | .notLockout => 3
  | .huntRunning => 4
  | .hotLine => 5
  | .mechanismBlocked => 6
  | .measureLost => 7
  | .energyLow => 8
  | .notOpen => 9
  | .tableNotReady => 10
  | .switchNotClosed => 11
  | .fireBan => 12
  | .controlSilent => 13
  | .notRunning => 14

/-- The codes of R186's table. -/
def LockoutReason.code : LockoutReason → Nat
  | .manualTrip => 0
  | .measureLoss => 1
  | .closeOntoFault => 2
  | .tripCause => 3
  | .shotsExhausted => 4
  | .blocked => 5
  | .closeWaitExpired => 6
  | .closeRefused => 7
  | .settings => 8
  | .fireBan => 9
  | .externalOpen => 10
  | .mechanismReset => 11
  | .huntEnd => 12
  | .start => 13

/-- The codes of R186's table. -/
def HuntReason.code : HuntReason → Nat
  | .sectionFound => 0
  | .limitReached => 1
  | .noCandidate => 2
  | .aborted => 3
  | .manual => 4
  | .hotLine => 5
  | .fireBan => 6
  | .measureLost => 7
  | .mechanism => 8
  | .external => 9
  | .switchFailed => 10
  | .switchDisturbed => 11
  | .orderTimeout => 12
  | .positionNotOpen => 13
  | .switchNotOperable => 14
  | .closeRefused => 15
  | .closeWaitExpired => 16
  | .otherFault => 17
  | .restoreTrip => 18

/-- LOCAL 0, CONTROL 1, AUTOMATIC 2 (R186). -/
def StartedBy.code : StartedBy → Nat
  | .bay => 0
  | .control => 1
  | .automatic => 2

/-- CONCLUDED_SECTION 0, CONCLUDED_RANGE 1, ABANDONED 2 (R186). -/
def HuntOutcome.code : HuntOutcome → Nat
  | .concludedSection => 0
  | .concludedRange => 1
  | .abandoned => 2

/-- The detail of a hunt result, a refusal reason or a master (R190). -/
def HuntDetail.code : HuntDetail → Nat
  | .refusal why => why.code
  | .master m => Master.code m

/-- IDLE 0 to ABANDONED 6 (R127). -/
def HuntState.code : HuntState → Nat
  | .idle => 0
  | .ordering => 1
  | .testing => 2
  | .testTrip => 3
  | .restoring => 4
  | .concluded => 5
  | .abandoned => 6

/-- OPEN 0, CLOSE 1 (R190). -/
def SwitchAction.code : SwitchAction → Nat
  | .openSwitch => 0
  | .closeSwitch => 1

/-- NONE 0, TEST 1, RESTORE 2 (R190). -/
def CloseDue.code : CloseDue → Nat
  | .none => 0
  | .test => 1
  | .restore => 2

/-- CLOSED 0, OPEN 1, UNKNOWN 2 (07, "The section table holds the following"). -/
def Believed.code : Believed → Nat
  | .closed => 0
  | .opened => 1
  | .unknown => 2

/-- PENDING 0, OPENED 1, TRIP_FAIL 2 (R189). -/
def OpeningOutcome.code : OpeningOutcome → Nat
  | .pending => 0
  | .opened => 1
  | .tripFail => 2

/-- FRAME 0, MISSING 1 (R188). -/
def StepKind.code : StepKind → Nat
  | .frame => 0
  | .missing => 1

/-- ABSENT 0, CLIPPED 1, ZERO 2, NORMAL 3 (R188). -/
def ChannelClass.code : ChannelClass → Nat
  | .absent => 0
  | .clipped => 1
  | .zero => 2
  | .normal => 3

/-- GOOD 0, LOST 1 (01, "Measurement state"). -/
def MeasureState.code : MeasureState → Nat
  | .good => 0
  | .lost => 1

/-! ## Sets, one bit per member (R186) -/

/-- PH_A bit 0 to MEASURE_LOSS bit 8. -/
def Causes.code (c : Causes) : Nat :=
  flag c.phA + 2 * flag c.phB + 4 * flag c.phC + 8 * flag c.highset + 16 * flag c.earth + 32 * flag c.sef
    + 64 * flag c.sotf + 128 * flag c.manual + 256 * flag c.measureLoss

/-- Lanes A bit 0, B 1, C 2, N 3. -/
def laneCode (q : Quad Bool) : Nat := flag q.a + 2 * flag q.b + 4 * flag q.c + 8 * flag q.n

/-- Phases A bit 0, B 1, C 2. -/
def phaseCode (q : Phases Bool) : Nat := flag q.a + 2 * flag q.b + 4 * flag q.c

/-! ## Requests -/

/-- The thirty requests, in the order of their codes, with the fields of their bodies (R187). -/
inductive Request where
  | status
  | readMeasurements
  | clearQuality
  | readNotice
  | setNoticeMask (mask : Half)
  | setHoldoff (ms : Half)
  | trip
  | close
  | resetMechanism
  | placeBlock (kind reason : Byte) (expiry : Half)
  | removeBlock (kind owner reason : Byte)
  | readBlocks
  | readSetting (target field : Byte)
  | writeSetting (target field : Byte) (value : Long)
  | confirmGroup (group : Byte)
  | readGroupState
  | setSeason (season : Byte)
  | declareFireLevel (level hours : Byte)
  | raiseLocalLevel (level : Byte)
  | clearLocalLevel
  | writeSection (target first : Byte) (second : Half)
  | confirmSections
  | readSections
  | startHunt
  | abortHunt
  | readHuntOrder
  | reportSwitch (ident state : Byte) (reference : Half)
  | readHunt
  | readRecord (index : Byte)
  | resetLink
deriving DecidableEq, Repr

/-- The request code (R178's table). -/
def Request.code : Request → Nat
  | .status => 1
  | .readMeasurements => 2
  | .clearQuality => 3
  | .readNotice => 4
  | .setNoticeMask _ => 5
  | .setHoldoff _ => 6
  | .trip => 7
  | .close => 8
  | .resetMechanism => 9
  | .placeBlock _ _ _ => 10
  | .removeBlock _ _ _ => 11
  | .readBlocks => 12
  | .readSetting _ _ => 13
  | .writeSetting _ _ _ => 14
  | .confirmGroup _ => 15
  | .readGroupState => 16
  | .setSeason _ => 17
  | .declareFireLevel _ _ => 18
  | .raiseLocalLevel _ => 19
  | .clearLocalLevel => 20
  | .writeSection _ _ _ => 21
  | .confirmSections => 22
  | .readSections => 23
  | .startHunt => 24
  | .abortHunt => 25
  | .readHuntOrder => 26
  | .reportSwitch _ _ _ => 27
  | .readHunt => 28
  | .readRecord _ => 29
  | .resetLink => 30

/-- The body of a request (R187). -/
def Request.body : Request → List Byte
  | .setNoticeMask mask => splitHalf mask
  | .setHoldoff ms => splitHalf ms
  | .placeBlock kind reason expiry => [kind, reason] ++ splitHalf expiry
  | .removeBlock kind owner reason => [kind, owner, reason]
  | .readSetting target field => [target, field]
  | .writeSetting target field value => [target, field] ++ splitLong value
  | .confirmGroup group => [group]
  | .setSeason season => [season]
  | .declareFireLevel level hours => [level, hours]
  | .raiseLocalLevel level => [level]
  | .writeSection target first second => [target, first] ++ splitHalf second
  | .reportSwitch ident state reference => [ident, state] ++ splitHalf reference
  | .readRecord index => [index]
  | .status => []
  | .readMeasurements => []
  | .clearQuality => []
  | .readNotice => []
  | .trip => []
  | .close => []
  | .resetMechanism => []
  | .readBlocks => []
  | .readGroupState => []
  | .clearLocalLevel => []
  | .confirmSections => []
  | .readSections => []
  | .startHunt => []
  | .abortHunt => []
  | .readHuntOrder => []
  | .readHunt => []
  | .resetLink => []

/-- A request's frame after its length byte: the code, then the body (R178). -/
def Request.frame (r : Request) : List Byte := byte r.code :: r.body

/-- The request of a code whose body is empty (R178's table). -/
def requestOf0 (code : Nat) : Option Request :=
  match code with
  | 1 => some .status
  | 2 => some .readMeasurements
  | 3 => some .clearQuality
  | 4 => some .readNotice
  | 7 => some .trip
  | 8 => some .close
  | 9 => some .resetMechanism
  | 12 => some .readBlocks
  | 16 => some .readGroupState
  | 20 => some .clearLocalLevel
  | 22 => some .confirmSections
  | 23 => some .readSections
  | 24 => some .startHunt
  | 25 => some .abortHunt
  | 26 => some .readHuntOrder
  | 28 => some .readHunt
  | 30 => some .resetLink
  | _ => none

/-- The request of a code whose body is one byte. -/
def requestOf1 (code : Nat) (b0 : Byte) : Option Request :=
  match code with
  | 15 => some (.confirmGroup b0)
  | 17 => some (.setSeason b0)
  | 19 => some (.raiseLocalLevel b0)
  | 29 => some (.readRecord b0)
  | _ => none

/-- The request of a code whose body is two bytes. -/
def requestOf2 (code : Nat) (b0 b1 : Byte) : Option Request :=
  match code with
  | 5 => some (.setNoticeMask (joinHalf b0 b1))
  | 6 => some (.setHoldoff (joinHalf b0 b1))
  | 13 => some (.readSetting b0 b1)
  | 18 => some (.declareFireLevel b0 b1)
  | _ => none

/-- The request of a code whose body is four bytes. -/
def requestOf4 (code : Nat) (b0 b1 b2 b3 : Byte) : Option Request :=
  match code with
  | 10 => some (.placeBlock b0 b1 (joinHalf b2 b3))
  | 21 => some (.writeSection b0 b1 (joinHalf b2 b3))
  | 27 => some (.reportSwitch b0 b1 (joinHalf b2 b3))
  | _ => none

/-- The request of a code and a body of the length the table gives for it; none for an unknown code or a body of the
wrong length, which make a frame malformed (R178). -/
def requestOf (code : Nat) (body : List Byte) : Option Request :=
  match body with
  | [] => requestOf0 code
  | [b0] => requestOf1 code b0
  | [b0, b1] => requestOf2 code b0 b1
  | [b0, b1, b2] => if code = 11 then some (.removeBlock b0 b1 b2) else none
  | [b0, b1, b2, b3] => requestOf4 code b0 b1 b2 b3
  | [b0, b1, b2, b3, b4, b5] => if code = 14 then some (.writeSetting b0 b1 (joinLong b2 b3 b4 b5)) else none
  | _ => none

/-- The request a complete frame carries, none if the frame is malformed (R178, item 1). -/
def readRequest : List Byte → Option Request
  | [] => none
  | code :: body => requestOf code.toNat body

/-- The roles that pass the rights check of a request (R178's table, R181). PLACE BLOCK and REMOVE BLOCK pass for all
three; Blocks weighs the kind (R82, R86). -/
def mayRequest (m : Master) : Request → Bool
  | .status => true
  | .readMeasurements => true
  | .clearQuality => m ≠ .crew
  | .readNotice => true
  | .setNoticeMask _ => true
  | .setHoldoff _ => true
  | .trip => true
  | .close => m ≠ .crew
  | .resetMechanism => m ≠ .crew
  | .placeBlock _ _ _ => true
  | .removeBlock _ _ _ => true
  | .readBlocks => true
  | .readSetting _ _ => true
  | .writeSetting _ _ _ => m ≠ .crew
  | .confirmGroup _ => m ≠ .crew
  | .readGroupState => true
  | .setSeason _ => m ≠ .crew
  | .declareFireLevel _ _ => m = .control
  | .raiseLocalLevel _ => m = .bay
  | .clearLocalLevel => m = .bay
  | .writeSection _ _ _ => m = .control
  | .confirmSections => m = .control
  | .readSections => true
  | .startHunt => m ≠ .crew
  | .abortHunt => true
  | .readHuntOrder => true
  | .reportSwitch _ _ _ => m = .control
  | .readHunt => true
  | .readRecord _ => true
  | .resetLink => true

/-! ## Answers -/

/-- The answer codes (R182). -/
inductive AnswerCode where
  | done
  | noRight
  | wrongState
  | outOfRange
  | listFull
  | notFound
  | tooLate
  | groupActive
  | checkFailed
deriving DecidableEq, Repr

/-- The codes of R182's table. -/
def AnswerCode.code : AnswerCode → Nat
  | .done => 0
  | .noRight => 1
  | .wrongState => 2
  | .outOfRange => 3
  | .listFull => 4
  | .notFound => 5
  | .tooLate => 6
  | .groupActive => 7
  | .checkFailed => 8

/-- What an owner answers: the code, the body, and whether the answer waits for a Store write (R182). -/
structure Reply where
  code : AnswerCode
  body : List Byte
  held : Bool
deriving DecidableEq, Repr

/-- DONE with a body, sent at once. -/
def Reply.done (body : List Byte) : Reply := ⟨.done, body, false⟩

/-- An answer with no body, sent at once. -/
def Reply.bare (code : AnswerCode) : Reply := ⟨code, [], false⟩

/-- WRONG_STATE with its reason (R187). -/
def Reply.wrong (why : Why) : Reply := ⟨.wrongState, [byte why.code], false⟩

/-- CHECK_FAILED with the check and the field or position (R187). -/
def Reply.check (number place : Nat) : Reply := ⟨.checkFailed, [byte number, byte place], false⟩

/-- The answer frame: the number of bytes that follow, the request code echoed, the answer code, the body (R182). -/
def Reply.frame (r : Reply) (requestCode : Nat) : List Byte :=
  [byte (2 + r.body.length), byte requestCode, byte r.code.code] ++ r.body

end Sys2Proof.Machine
end

