-- ==== Sys2Proof/Config.lean ====
section
/-! DEFINITION. The values the manual leaves open. Each is an opaque constant without a body: nothing can be proved of its
value, so what is proved of the part holds for every value. -/

namespace Sys2Proof

/-- FREE (DESIGN CHOICE, log entry 16). Whether a remaining time of this many milliseconds, not a whole number of seconds, is shown as the
next whole number of seconds above it rather than the one below it. The manual gives the fields "seconds
remaining" (R120, R133, R188, R190) and no rounding. -/
opaque Config.roundsUp : Nat → Bool

/-- FREE (DESIGN CHOICE, log entry 17). The uptime shown after this many seconds since start-up, once the range 0..4,294,967,295
(00_scope.md) has been passed. The manual gives the range and no behaviour past it. -/
opaque Config.uptimePastRange : Nat → Nat

/-- FREE (DESIGN CHOICE, log entry 4). The window sum of a hunt test that is ended, by a bare HUNT_TEST_WINDOW_END at this clock, after
this many window steps and this sum: the residuals of the steps passed over are not given. -/
opaque Config.unseenWindowSum : Nat → Nat → Nat → Nat

/-- FREE (DESIGN CHOICE, log entry 4). Whether one of the window steps passed over, by a bare HUNT_TEST_WINDOW_END at this clock
after this many window steps, had its residual UNAVAILABLE, which makes the result DOUBTFUL (R139). -/
opaque Config.unseenUnavailable : Nat → Nat → Bool

end Sys2Proof
end

