-- ==== Sys2Proof/Machine/Constants.lean ====
section
/-! DEFINITION. The fixed numbers and records of the manual: times, limits, the curve table, the field ranges, the default
record and FALLBACK. -/

namespace Sys2Proof.Machine

/-- TRIP_FULL (R23). -/
def tripFull : Nat := 1000000

/-- The decay of an accumulator on a step below pickup (R24). -/
def decayStep : Nat := 50000

/-- The bound of the open count, 3600 s of steps (R20). -/
def openCountFull : Nat := 360000

/-- The longest expiry of a block in minutes (R79, R82). -/
def longestExpiry : Nat := 1440

/-- The masters' places in the block list (R80). -/
def masterPlaces : Nat := 5

/-- The size of the record ring (R155). -/
def ringSize : Nat := 16

/-- The bound of the measurement loss counter and of a link's health counter (R11, R179). -/
def counterFull : Nat := 32

/-- The curve time at TMS 1.00 in ms, by curve 1 to 4 and band 1 to 11 (R23); 0 outside the table, for no band. -/
def curveTime (curve band : Nat) : Nat :=
  let column : List Nat :=
    match curve with
    | 1 => [60000, 30000, 16000, 9800, 6200, 4900, 4200, 3500, 2900, 2500, 2200]
    | 2 => [60000, 45000, 24000, 13500, 6800, 4500, 3400, 2300, 1500, 1050, 720]
    | 3 => [60000, 58000, 42000, 26500, 10000, 5300, 3300, 1650, 810, 410, 200]
    | 4 => [1000, 1000, 1000, 1000, 1000, 1000, 1000, 1000, 1000, 1000, 1000]
    | _ => []
  if band = 0 then 0 else column.getD (band - 1) 0

/-- The lower bounds of bands 1 to 11 in sixty-fourths of pickup (R22). -/
def bandBounds : List Nat := [64, 77, 96, 128, 192, 256, 320, 448, 640, 896, 1280]

/-- The band of a multiple: the highest whose lower bound it has reached, 0 below pickup (R22). The bounds rise, so
that is the number of bounds reached. -/
def bandOf (m64 : Nat) : Nat := (bandBounds.filter (· ≤ m64)).length

/-- The field of a record by its number 1 to 21 (R96). -/
def Settings.field (s : Settings) : Nat → Option Nat
  | 1 => s.phasePickup
  | 2 => s.phaseCurve
  | 3 => s.phaseTms
  | 4 => s.highsetLevel
  | 5 => s.highsetDelay
  | 6 => s.earthPickup
  | 7 => s.earthCurve
  | 8 => s.earthTms
  | 9 => s.sefPickup
  | 10 => s.sefDelay
  | 11 => s.shots
  | 12 => s.deadTime1
  | 13 => s.deadTime2
  | 14 => s.deadTime3
  | 15 => s.reclaimTime
  | 16 => s.coldLoadMultiplier
  | 17 => s.coldLoadThreshold
  | 18 => s.coldLoadDuration
  | 19 => s.sotfWindow
  | 20 => s.autoHunt
  | 21 => s.huntTestLimit
  | _ => none

/-- The record with one field replaced, by its number 1 to 21 (R96, R100). -/
def Settings.withField (s : Settings) (number : Nat) (v : Option Nat) : Settings :=
  match number with
  | 1 => { s with phasePickup := v }
  | 2 => { s with phaseCurve := v }
  | 3 => { s with phaseTms := v }
  | 4 => { s with highsetLevel := v }
  | 5 => { s with highsetDelay := v }
  | 6 => { s with earthPickup := v }
  | 7 => { s with earthCurve := v }
  | 8 => { s with earthTms := v }
  | 9 => { s with sefPickup := v }
  | 10 => { s with sefDelay := v }
  | 11 => { s with shots := v }
  | 12 => { s with deadTime1 := v }
  | 13 => { s with deadTime2 := v }
  | 14 => { s with deadTime3 := v }
  | 15 => { s with reclaimTime := v }
  | 16 => { s with coldLoadMultiplier := v }
  | 17 => { s with coldLoadThreshold := v }
  | 18 => { s with coldLoadDuration := v }
  | 19 => { s with sotfWindow := v }
  | 20 => { s with autoHunt := v }
  | 21 => { s with huntTestLimit := v }
  | _ => s

/-- Whether a number lies in a range, low and high both included (00_scope.md). -/
def within (lo hi v : Nat) : Bool := lo ≤ v && v ≤ hi

/-- Whether a field number is a dead time (R96). -/
def isDeadTime (number : Nat) : Bool := within 12 14 number

/-- Whether a value may be written to a field (R96, R99): a dead time also takes 0, which makes it absent. -/
def fieldAccepts (number v : Nat) : Bool :=
  match number with
  | 1 => within 100 20000 v
  | 2 => within 1 4 v
  | 3 => within 5 150 v
  | 4 => v ≤ 60000
  | 5 => v ≤ 500 && v % 10 = 0
  | 6 => within 500 50000 v
  | 7 => within 1 4 v
  | 8 => within 5 150 v
  | 9 => within 100 5000 v
  | 10 => within 100 60000 v && v % 10 = 0
  | 11 => v ≤ 3
  | 12 => v = 0 || within 300 180000 v
  | 13 => v = 0 || within 300 180000 v
  | 14 => v = 0 || within 300 180000 v
  | 15 => within 5 300 v
  | 16 => within 100 300 v
  | 17 => within 60 3600 v
  | 18 => within 1 600 v
  | 19 => within 200 10000 v
  | 20 => v ≤ 1
  | 21 => within 1 6 v
  | _ => false

/-- The record a group's first write begins from (R97). -/
def defaultRecord : Settings where
  phasePickup := none
  phaseCurve := some 1
  phaseTms := some 100
  highsetLevel := some 0
  highsetDelay := some 0
  earthPickup := none
  earthCurve := some 1
  earthTms := some 100
  sefPickup := none
  sefDelay := none
  shots := some 0
  deadTime1 := none
  deadTime2 := none
  deadTime3 := none
  reclaimTime := some 30
  coldLoadMultiplier := some 100
  coldLoadThreshold := some 600
  coldLoadDuration := some 10
  sotfWindow := some 1000
  autoHunt := some 0
  huntTestLimit := some 4

/-- FALLBACK (R107). -/
def fallback : Settings where
  phasePickup := some 4000
  phaseCurve := some 4
  phaseTms := some 10
  highsetLevel := some 0
  highsetDelay := some 0
  earthPickup := some 4000
  earthCurve := some 4
  earthTms := some 10
  sefPickup := some 400
  sefDelay := some 2000
  shots := some 0
  deadTime1 := none
  deadTime2 := none
  deadTime3 := none
  reclaimTime := some 30
  coldLoadMultiplier := some 100
  coldLoadThreshold := some 600
  coldLoadDuration := some 10
  sotfWindow := some 1000
  autoHunt := some 0
  huntTestLimit := some 1

/-- A record with every field absent: what an EMPTY group reads as (R106). -/
def absentRecord : Settings :=
  ⟨none, none, none, none, none, none, none, none, none, none, none, none, none, none, none, none, none, none, none,
    none, none⟩

/-- Dead time k of a record in ms (R61); an absent one, which no confirmed image has within its shots (R103), counts 0. -/
def Settings.deadTime (s : Settings) (k : Nat) : Nat :=
  match k with
  | 1 => s.deadTime1.getD 0
  | 2 => s.deadTime2.getD 0
  | _ => s.deadTime3.getD 0

end Sys2Proof.Machine
end

