-- ==== Sys2Proof/Machine/Flags.lean ====
section
/-! DEFINITION. The flag computations: lanes and masks, sets of causes, channel classes and comparisons, and which notice
kinds are eligible. Nothing here reads the whole part. -/

namespace Sys2Proof.Machine

/-! ## Lanes -/

/-- A thing of each channel from the channel. -/
def Quad.map {α β : Type} (f : α → β) (q : Quad α) : Quad β := ⟨f q.a, f q.b, f q.c, f q.n⟩

/-- A thing of each channel from two things of it. -/
def Quad.zip {α β γ : Type} (f : α → β → γ) (q : Quad α) (r : Quad β) : Quad γ :=
  ⟨f q.a r.a, f q.b r.b, f q.c r.c, f q.n r.n⟩

/-- No lane set. -/
def noLanes : Quad Bool := ⟨false, false, false, false⟩

/-- No phase set. -/
def noPhases : Phases Bool := ⟨false, false, false⟩

/-- Whether some lane is set. -/
def anyLane (q : Quad Bool) : Bool := q.a || q.b || q.c || q.n

/-- Whether every lane is set. -/
def allLanes (q : Quad Bool) : Bool := q.a && q.b && q.c && q.n

/-- Whether some phase lane is set. -/
def anyPhaseLane (q : Quad Bool) : Bool := q.a || q.b || q.c

/-- Whether some phase is set. -/
def anyPhase (q : Phases Bool) : Bool := q.a || q.b || q.c

/-- The lanes set in either. -/
def laneUnion (q r : Quad Bool) : Quad Bool := Quad.zip (· || ·) q r

/-! ## Causes -/

/-- The cause set of a TRIP or ABORT HUNT request (R55, R143). -/
def manualCause : Causes := { manual := true }

/-- The cause set of Intake's request (R55, R143). -/
def measureLossCause : Causes := { measureLoss := true }

/-- Whether every cause may be reclosed: none lies outside PH_A, PH_B, PH_C, HIGHSET and EARTH (R59, condition 2). -/
def Causes.reclosable (c : Causes) : Bool := !(c.sef || c.sotf || c.manual || c.measureLoss)

/-- Whether a set holds a cause of Elements. -/
def Causes.any (c : Causes) : Bool :=
  c.phA || c.phB || c.phC || c.highset || c.earth || c.sef || c.sotf || c.manual || c.measureLoss

/-! ## Channels (R5, R6, R7) -/

/-- The class of a reading (R5). A step without a frame makes every channel ABSENT. -/
def classOf (r : Reading) : ChannelClass :=
  if !r.valid then .absent
  else if r.magnitude = 65535 then .clipped
  else if r.magnitude < 20 then .zero
  else .normal

/-- A channel's state after a step with a measured value (R6, first item): NORMAL or ZERO. -/
def Channel.measured (cls : ChannelClass) (v : Nat) : Channel := ⟨some cls, some v, 0, true, some v⟩

/-- A channel's state after a CLIPPED step (R6). -/
def Channel.clip (c : Channel) : Channel := ⟨some .clipped, c.held, 0, true, some 65534⟩

/-- A channel's state after an ABSENT step (R6). -/
def Channel.miss (c : Channel) : Channel :=
  match c.held with
  | some v => if c.hold < 2 then ⟨some .absent, some v, c.hold + 1, true, some v⟩ else ⟨some .absent, some v, 2, false, none⟩
  | none => ⟨some .absent, none, 2, false, none⟩

/-- A channel's state after a step, from its reading or from none (R5, R6). -/
def Channel.step (c : Channel) (r : Option Reading) : Channel :=
  match r with
  | none => c.miss
  | some r =>
    match classOf r with
    | .absent => c.miss
    | .clipped => c.clip
    | .zero => Channel.measured .zero 0
    | .normal => Channel.measured .normal r.magnitude

/-- Whether a channel is CLIPPED on the latest step. -/
def Channel.isClipped (c : Channel) : Bool := c.cls = some .clipped

/-- Whether a channel is ABSENT on the latest step. -/
def Channel.isAbsent (c : Channel) : Bool := c.cls = some .absent

/-- Whether a channel stands at or above a threshold (R7): CLIPPED is above every threshold, UNAVAILABLE below. -/
def Channel.atLeast (c : Channel) (threshold : Nat) : Bool :=
  c.available && (c.isClipped || threshold ≤ c.value.getD 0)

/-- A channel's magnitude for peaks and averages, none while it is UNAVAILABLE (R7). -/
def Channel.magnitude (c : Channel) : Option Nat :=
  if c.available then some (if c.isClipped then 65534 else c.value.getD 0) else none

/-- The multiple of pickup, none while the channel is UNAVAILABLE (R22). -/
def Channel.multiple (c : Channel) (pickup : Nat) : Option Nat :=
  if c.available then some (if c.isClipped then 1280 else min (c.value.getD 0 * 64 / pickup) 1280) else none

/-- Whether an inverse-time element on this channel is picked up (R22). -/
def Channel.pickedUp (c : Channel) (pickup : Nat) : Bool :=
  match c.multiple pickup with
  | some m => 64 ≤ m
  | none => false

/-! ## Notice kinds (R161, R162) -/

/-- The priority of a kind, which is also its number (R161). -/
def NoticeKind.priority : NoticeKind → Nat
  | .trip => 0
  | .mechanismFail => 1
  | .lockout => 2
  | .measureLoss => 3
  | .huntOrder => 4
  | .huntEnd => 5
  | .posture => 6
  | .blocks => 7
  | .recloseOk => 8
  | .record => 9
  | .settings => 10
  | .linkFault => 11
  | .ready => 12

/-- The thirteen kinds by priority. -/
def allKinds : List NoticeKind :=
  [.trip, .mechanismFail, .lockout, .measureLoss, .huntOrder, .huntEnd, .posture, .blocks, .recloseOk, .record, .settings,
    .linkFault, .ready]

/-- The set that holds one kind. -/
def NoticeKind.bit (k : NoticeKind) : KindSet := BitVec.twoPow 13 k.priority

/-- Whether a set holds a kind. -/
def holdsKind (s : KindSet) (k : NoticeKind) : Bool := s.getLsbD k.priority

/-- The kinds eligible for a master: latched and unmasked (R162). -/
def MasterNotices.eligible (n : MasterNotices) : KindSet := n.latched &&& ~~~n.mask

/-- The eligible kind of highest priority (R165). -/
def MasterNotices.first (n : MasterNotices) : Option NoticeKind := allKinds.find? (holdsKind n.eligible)

/-- The level of a master's attention line (R164), where `shown` says that start-up is complete and a link holds the
master's role (R173, R175). -/
def MasterNotices.lineLevel (n : MasterNotices) (shown : Bool) : Bool :=
  shown && n.holdoffTimer.isNone && n.eligible ≠ 0

/-! ## Fire levels (R114) -/

/-- The rank of a level: NONE, ELEVATED, BAN. -/
def Level.rank : Level → Nat
  | .none => 0
  | .elevated => 1
  | .ban => 2

/-- The higher of two levels. -/
def Level.max (a b : Level) : Level := if a.rank < b.rank then b else a

/-! ## Position sets (R190) -/

/-- Whether a position is in a set. -/
def hasPosition (s : PositionSet) (k : Nat) : Bool := 1 ≤ k && s.getLsbD (k - 1)

/-- A set with a position added. -/
def addPosition (s : PositionSet) (k : Nat) : PositionSet := if k = 0 then s else s ||| BitVec.twoPow 15 (k - 1)

end Sys2Proof.Machine
end

