-- ==== Sys2Proof/Machine/Ops.lean ====
section
/-! DEFINITION. The shared operations on the part: its clock and timers, the notices, the fault records, the Store's queue,
what Elements do on a position and on a close order, and the orders at Mechanism. Every chapter's rules use these. -/

namespace Sys2Proof.Machine

/-! ## Collections -/

/-- The thing of a master. -/
def PerMaster.get {α : Type} (t : PerMaster α) : Master → α
  | .bay => t.bay
  | .control => t.control
  | .crew => t.crew

/-- The collection with a master's thing replaced. -/
def PerMaster.set {α : Type} (t : PerMaster α) (m : Master) (x : α) : PerMaster α :=
  match m with
  | .bay => { t with bay := x }
  | .control => { t with control := x }
  | .crew => { t with crew := x }

/-- The thing of a link. -/
def PerLink.get {α : Type} (t : PerLink α) : LinkId → α
  | .link1 => t.link1
  | .link2 => t.link2
  | .link3 => t.link3

/-- The collection with a link's thing replaced. -/
def PerLink.set {α : Type} (t : PerLink α) (k : LinkId) (x : α) : PerLink α :=
  match k with
  | .link1 => { t with link1 := x }
  | .link2 => { t with link2 := x }
  | .link3 => { t with link3 := x }

/-- The thing of a group. -/
def FourGroups.get {α : Type} (t : FourGroups α) : GroupId → α
  | .g0 => t.g0
  | .g1 => t.g1
  | .g2 => t.g2
  | .g3 => t.g3

/-- The collection with a group's thing replaced. -/
def FourGroups.set {α : Type} (t : FourGroups α) (g : GroupId) (x : α) : FourGroups α :=
  match g with
  | .g0 => { t with g0 := x }
  | .g1 => { t with g1 := x }
  | .g2 => { t with g2 := x }
  | .g3 => { t with g3 := x }

/-- The thing of a slot. -/
def PerSlot.get {α : Type} (t : PerSlot α) : SlotId → α
  | .slot1 => t.slot1
  | .slot2 => t.slot2
  | .slot3 => t.slot3
  | .slot4 => t.slot4
  | .slot5 => t.slot5

/-- The collection with a slot's thing replaced. -/
def PerSlot.set {α : Type} (t : PerSlot α) (n : SlotId) (x : α) : PerSlot α :=
  match n with
  | .slot1 => { t with slot1 := x }
  | .slot2 => { t with slot2 := x }
  | .slot3 => { t with slot3 := x }
  | .slot4 => { t with slot4 := x }
  | .slot5 => { t with slot5 := x }

/-- The five slots in order. -/
def allSlots : List SlotId := [.slot1, .slot2, .slot3, .slot4, .slot5]

/-! ## The clock (DESIGN CHOICE, log entry 2) -/

/-- The uptime in seconds (R199); past its range a free value (DESIGN CHOICE, log entry 17). -/
def Part.uptime (p : Part) : Nat :=
  if p.clock / 1000 ≤ 4294967295 then p.clock / 1000 else Config.uptimePastRange (p.clock / 1000)

/-- A timer that starts now and runs for this many milliseconds. -/
def Part.timer (p : Part) (ms : Nat) : Option Nat := some (p.clock + ms)

/-- The clock moved on to the end of a timer whose expiry is taken, if it stands before it (DESIGN CHOICE, log entry 2). -/
def Part.reach (p : Part) (moment : Nat) : Part := { p with clock := max p.clock moment }

/-- The milliseconds left on a running timer. -/
def Part.msLeft (p : Part) (t : Option Nat) : Option Nat := t.map (· - p.clock)

/-- Milliseconds as whole seconds; a part of a second goes to the free rounding (DESIGN CHOICE, log entry 16). -/
def secondsOf (ms : Nat) : Nat :=
  if ms % 1000 = 0 then ms / 1000 else if Config.roundsUp ms then ms / 1000 + 1 else ms / 1000

/-! ## Notices (09) -/

/-- Whether some link holds a master's role (R175). -/
def Part.holdsRole (p : Part) (m : Master) : Bool :=
  p.links.link1.role = .held m || p.links.link2.role = .held m || p.links.link3.role = .held m

/-- Whether a master's attention line is shown at all: start-up is complete and a link holds the role (R173, R175). -/
def Part.showsLine (p : Part) (m : Master) : Bool := p.started && p.holdsRole m

/-- A master's notice state replaced, and its line weighed afresh (R164). -/
def setNotices (m : Master) (n : MasterNotices) (p : Part) : Part :=
  { p with notices := p.notices.set m { n with line := n.lineLevel (p.showsLine m) } }

/-- A kind latched for one master (R163). -/
def latch (k : NoticeKind) (m : Master) (p : Part) : Part :=
  setNotices m { p.notices.get m with latched := (p.notices.get m).latched ||| k.bit } p

/-- A kind raised that names no master (R161, R163): it reaches every receiver. -/
def raise (k : NoticeKind) (p : Part) : Part :=
  match k with
  | .huntOrder => latch k .control p
  | _ => latch k .crew (latch k .control (latch k .bay p))

/-- LINK_FAULT raised naming a link (R161): it reaches the masters other than the one whose role the link holds. -/
def raiseLinkFault (k : LinkId) (p : Part) : Part :=
  match (p.links.get k).role with
  | .held .bay => latch .linkFault .crew (latch .linkFault .control p)
  | .held .control => latch .linkFault .crew (latch .linkFault .bay p)
  | .held .crew => latch .linkFault .control (latch .linkFault .bay p)
  | .disabled => p

/-! ## Active settings (R117) -/

/-- The record of the active settings: a group's confirmed image, or FALLBACK (R107, R117). Only a READY group is active
(R116), and a READY group has an image (DESIGN CHOICE, log entry 29). -/
def Part.settings (p : Part) : Settings :=
  match p.posture.active with
  | .fallback => fallback
  | .group g => (p.posture.groups.get g).image.getD fallback

/-! ## Fault records (08) -/

/-- The number after a record number (R154). -/
def nextNumber (n : Nat) : Nat := if n = 65535 then 1 else n + 1

/-- The peaks Elements hand over with no episode (R152). -/
def noPeaks : Quad (Option Peak) := ⟨none, none, none, none⟩

/-- What a placer gives Records (R152, the fields above the line). -/
structure TripFields where
  origin : Origin
  causes : Causes
  requester : Option Master
  highsetLanes : Phases Bool
  sotfLanes : Quad Bool
  shot : Nat
deriving DecidableEq, Repr

/-- The record of a trip placed now, with opening outcome PENDING (R152, R153). -/
def Part.newRecord (f : TripFields) (p : Part) : FaultRecord where
  number := p.records.next
  uptime := p.uptime
  origin := f.origin
  causes := f.causes
  requester := f.requester
  highsetLanes := f.highsetLanes
  sotfLanes := f.sotfLanes
  shot := f.shot
  active := p.posture.active
  level := p.posture.level
  peaks := match p.elements.episode with
    | some e => e.peaks
    | none => noPeaks
  steps := p.elements.episode.map (·.steps)
  outcome := .pending

/-- A fault record written at a placed trip order (R153): Elements hand over the episode, which ends (R32), the record
joins the ring, and RECORD is raised. -/
def writeRecord (f : TripFields) (p : Part) : Part :=
  raise .record
    { p with
      records :=
        { ring := (p.newRecord f :: p.records.ring).take ringSize
          next := nextNumber p.records.next
          pendingRecord := some p.records.next }
      elements := { p.elements with episode := none } }

/-- Records take the outcome of a trip order (R156). -/
def completeRecord (o : OpeningOutcome) (p : Part) : Part :=
  match p.records.pendingRecord with
  | none => p
  | some n =>
    { p with
      records :=
        { p.records with
          ring := p.records.ring.map fun r => if r.number = n then { r with outcome := o } else r
          pendingRecord := none } }

/-! ## The Store's queue (R194) -/

/-- The oldest queued write begins if none is in progress (R194), once start-up is complete (R199). -/
def beginWrite (p : Part) : Part :=
  if p.started && !p.store.writing && !p.store.queue.isEmpty then
    { p with store := { p.store with writing := true, writeTimer := p.timer 40 } }
  else p

/-- A write joins the end of the queue, and begins if nothing else waits (R194). -/
def queueWrite (w : Write) (k : Option LinkId) (p : Part) : Part :=
  beginWrite { p with store := { p.store with queue := p.store.queue ++ [⟨w, k⟩] } }

/-! ## What Elements do on positions and close orders -/

/-- Whether a test close order is in progress: one of kind HUNT_TEST (R19, R33). -/
def Part.inTestClose (p : Part) : Bool := p.mech.order = .close && p.elements.closeKind = .huntTest

/-- Elements are told that the position has become OPEN (R18). A close order that the Hunt placed on the OPENED just handed
on is still in progress: its kind stands until it ends (R19), and a test close has set the mode for its own steps (R33).
Whatever the mode held of the test before ends here (R18 item 5; DEDUCED, log entry 11). -/
def elementsOpened (p : Part) : Part :=
  { p with
    elements :=
      { p.elements with
        acc := ⟨0, 0, 0, 0⟩
        highset := ⟨0, 0, 0⟩
        sef := 0
        episode := none
        sotf := none
        coldLoad := none
        mask := noLanes
        sefPicked := false
        mode := if p.inTestClose then .huntTest else .normal
        closeKind := if p.mech.order = .close then p.elements.closeKind else .none
        openCount := 0 } }

/-- Whether the open count qualifies under the active settings (R20). -/
def Part.openCountQualifies (p : Part) : Bool :=
  (p.settings.coldLoadThreshold.getD 0) * 100 ≤ p.elements.openCount

/-- The SOTF window armed with its full count (R28). -/
def Part.armedSotf (p : Part) : Option Nat := some ((p.settings.sotfWindow.getD 0) / 10)

/-- The cold-load window after a close that may start it (R29). -/
def Part.startedColdLoad (p : Part) : Option Nat :=
  if p.openCountQualifies && 100 < p.settings.coldLoadMultiplier.getD 0 then
    some ((p.settings.coldLoadDuration.getD 0) * 100)
  else p.elements.coldLoad

/-- Elements are told that the position has become CLOSED (R19), by a close order or as an external close. -/
def elementsClosed (byOrder : Bool) (p : Part) : Part :=
  let armed : Part :=
    { p with
      elements :=
        { p.elements with sotf := p.armedSotf, coldLoad := p.startedColdLoad, mode := .normal, closeKind := .none } }
  if byOrder then
    match p.elements.closeKind with
    | .automatic =>
      { p with elements := { p.elements with coldLoad := p.startedColdLoad, mode := .normal, closeKind := .none } }
    | .huntTest => { p with elements := { p.elements with closeKind := .none } }
    | .manual => armed
    | .huntRestore => armed
    | .none => armed
  else armed

/-- A close order names its kind to Elements as it is accepted (R19, R49); a HUNT_TEST kind sets the mode (R33). -/
def closeKindNamed (kind : CloseKind) (p : Part) : Part :=
  { p with
    elements :=
      { p.elements with closeKind := kind, mode := if kind = .huntTest then .huntTest else p.elements.mode } }

/-- A close order ends without the position becoming CLOSED: refused, released, made trip-free or failed (R19, R33). -/
def closeEnded (p : Part) : Part := { p with elements := { p.elements with closeKind := .none, mode := .normal } }

/-- The Hunt hands the breaker back (R33, R76). -/
def elementsHandBack (p : Part) : Part := { p with elements := { p.elements with mode := .normal } }

/-- Elements take a change of the active settings (R29, R38): only the cold-load window answers at once. -/
def elementsSettings (p : Part) : Part :=
  if p.settings.coldLoadMultiplier.getD 0 = 100 then { p with elements := { p.elements with coldLoad := none } } else p

/-! ## The block list read (R89) -/

/-- Whether an entry of a kind is in the list (R89). -/
def Part.hasBlock (p : Part) (k : BlockKind) : Bool := p.entries.any (·.kind = k)

/-! ## Orders at Mechanism (03) -/

/-- The breaker position from the two contacts (R41). -/
def Mechanism.position (m : Mechanism) : Position :=
  match m.openMade, m.closedMade with
  | true, false => .opened
  | false, true => .closed
  | false, false => .travel
  | true, true => .discrepant

/-- The breaker position of the part (R41). -/
def Part.position (p : Part) : Position := p.mech.position

/-- The order in progress ends: the outputs are released and the order timer stops (R46, R48, R50, R51), and the travel
timer starts if the position is TRAVEL (R43). The outcome is handed on by the caller. -/
def endOrder (p : Part) : Part :=
  { p with
    mech :=
      { p.mech with
        order := .none
        placer := none
        orderTimer := none
        tripOutput := false
        closeOutput := false
        travelTimer := if p.position = .travel then p.timer 300 else p.mech.travelTimer } }

/-- The close's placer is told TRIP_FREE: the Sequencer's close purpose becomes NONE, and neither placer does more (R55, R64,
R138, R143). -/
def tripFreeTaken (by' : Option Placer) (p : Part) : Part :=
  match by' with
  | some .sequencer => { p with seq := { p.seq with purpose := .none } }
  | _ => p

/-- A close order in progress is made trip-free (R51). -/
def tripFree (p : Part) : Part := tripFreeTaken p.mech.placer (closeEnded (endOrder p))

/-- A trip order begins with none in progress (R47, first and second rows). -/
def beginTrip (by' : Placer) (p : Part) : Part × TripAnswer :=
  if p.position = .opened then (p, .alreadyOpen)
  else
    ({ p with
        mech :=
          { p.mech with
            order := .trip
            placer := some by'
            orderTimer := p.timer 200
            tripOutput := true
            travelTimer := none } },
      .accepted)

/-- A trip order placed with Mechanism (R47). On `alreadyOpen` the outcome OPENED is handed on by the placer's own rule,
after it has taken the answer (R48, R55, R156). -/
def placeTrip (by' : Placer) (p : Part) : Part × TripAnswer :=
  match p.mech.order with
  | .trip => (p, .inProgress)
  | .close => beginTrip by' (tripFree p)
  | .none => beginTrip by' p

/-- The first check of a close order that fails (R49). -/
def closeRefusal (p : Part) : Option Why :=
  if p.mech.order ≠ .none then some .orderInProgress
  else if p.position ≠ .opened then some .notOpen
  else if !p.mech.energyHigh then some .energyLow
  else if p.hasBlock .hotLine then some .hotLine
  else if p.hasBlock .mechanism then some .mechanismBlocked
  else none

/-- A close order placed with Mechanism (R49): refused with a reason, or accepted with the close output asserted. -/
def placeClose (by' : Placer) (kind : CloseKind) (p : Part) : Part × Option Why :=
  match closeRefusal p with
  | some why => (closeEnded p, some why)
  | none =>
    (closeKindNamed kind
      { p with
        mech :=
          { p.mech with
            order := .close
            placer := some by'
            orderTimer := p.timer 300
            closeOutput := true
            travelTimer := none } },
      none)

end Sys2Proof.Machine
end

