-- ==== Sys2Proof/Machine/Sequencer.lean ====
section
/-! DEFINITION. The Sequencer's own moves that place no trip: lockout, failure, the automatic close, its timers, changes of
settings and level, external operations, and the breaker taken back from the Hunt (04_reclose_sequencer.md). -/

namespace Sys2Proof.Machine

/-- Entry to LOCKOUT, items 1 to 4 (R60). Item 5, the offer to the Hunt, comes only with TRIP_CAUSE and is taken there. -/
def enterLockout (r : LockoutReason) (p : Part) : Part :=
  raise .lockout
    { p with
      seq :=
        { p.seq with
          state := .lockout
          deadTimer := none
          closeWaitTimer := none
          reclaimTimer := none
          pendingShot := none
          purpose := .none
          forced := none
          lockoutReason := some r } }

/-- Entry to FAILED (R71). -/
def enterFailed (p : Part) : Part :=
  { p with
    seq :=
      { p.seq with
        state := .failed
        deadTimer := none
        closeWaitTimer := none
        reclaimTimer := none
        pendingShot := none
        purpose := .none
        forced := none } }

/-- Entry to CLOSED with the shots used at 0 (R64, R65, R72, R74, R76). -/
def enterClosed (p : Part) : Part :=
  { p with
    seq :=
      { p.seq with
        state := .closed
        shotsUsed := 0
        deadTimer := none
        closeWaitTimer := none
        reclaimTimer := none
        pendingShot := none
        purpose := .none
        forced := none } }

/-- A position failure announced by Mechanism (R71, R75). -/
def seqPositionFailure (p : Part) : Part :=
  match p.seq.state with
  | .huntHeld => { p with seq := { p.seq with failureNoted := true } }
  | .failed => p
  | _ => enterFailed p

/-- The placement of a block handed to the Sequencer (R67). -/
def seqBlockPlaced (k : BlockKind) (p : Part) : Part :=
  match p.seq.state with
  | .deadTime => enterLockout .blocked p
  | .closeWait => enterLockout .blocked p
  | .huntHeld => if k = .mechanism then { p with seq := { p.seq with failureNoted := true } } else p
  | _ => p

/-- What the Hunt names as it hands the breaker back (R76). -/
inductive HandBack where
  | closed
  | lockout
deriving DecidableEq, Repr

/-- The Sequencer takes the breaker back from the Hunt (R76). -/
def seqHandBack (named : HandBack) (p : Part) : Part :=
  if p.seq.failureNoted then enterFailed p
  else
    match named with
    | .closed => enterClosed p
    | .lockout => enterLockout .huntEnd p

/-- The close-wait timer starts for 10 s and the Sequencer enters CLOSE_WAIT (R61, R63). -/
def enterCloseWait (p : Part) : Part :=
  { p with seq := { p.seq with state := .closeWait, deadTimer := none, closeWaitTimer := p.timer 10000 } }

/-- The automatic close order of the pending shot, from DEAD_TIME or CLOSE_WAIT (R63).
(DEDUCED, log entry 13.) -/
def automaticClose (p : Part) : Part :=
  match p.seq.pendingShot with
  | none => p
  | some k =>
    if p.settings.shots.getD 0 < k then enterLockout .settings p
    else
      match placeClose .sequencer .automatic p with
      | (q, none) =>
        { q with
          seq :=
            { q.seq with
              state := .closing
              shotsUsed := k
              pendingShot := none
              purpose := .automatic
              deadTimer := none
              closeWaitTimer := none } }
      | (q, some .energyLow) => if q.seq.state = .deadTime then enterCloseWait q else q
      | (q, some _) => enterLockout .closeRefused q

/-- The three conditions weighed for an automatic close (R61, R62). -/
def Part.recloseConditions (p : Part) : Bool := p.entries.isEmpty && p.intake.sourceLive && p.mech.energyHigh

/-- The dead-time expiry taken (R61). -/
def deadTimeEnded (p : Part) : Part :=
  let q : Part := { p with seq := { p.seq with deadTimer := none } }
  if q.seq.state = .deadTime then
    if q.recloseConditions then automaticClose q else enterCloseWait q
  else q

/-- The Sequencer takes a change of source-live or energy-ready (R62). -/
def seqConditionsChanged (p : Part) : Part :=
  if p.seq.state = .closeWait && p.recloseConditions then automaticClose p else p

/-- The close-wait expiry taken (R62). -/
def closeWaitEnded (p : Part) : Part :=
  let q : Part := { p with seq := { p.seq with closeWaitTimer := none } }
  if q.seq.state = .closeWait then enterLockout .closeWaitExpired q else q

/-- The reclaim expiry taken (R65). -/
def reclaimEnded (p : Part) : Part :=
  let q : Part := { p with seq := { p.seq with reclaimTimer := none } }
  if q.seq.state = .reclaim then raise .recloseOk (enterClosed q) else q

/-- The Sequencer takes the outcome CLOSED of its close order (R64). -/
def seqCloseDone (p : Part) : Part :=
  if p.seq.state = .closing then
    match p.seq.purpose with
    | .manual => enterClosed p
    | _ =>
      { p with
        seq :=
          { p.seq with
            state := .reclaim
            purpose := .none
            closeMoment := some p.clock
            reclaimTimer := p.timer (p.settings.reclaimTime.getD 0 * 1000) } }
  else p

/-- The Sequencer takes the outcome CLOSE_FAIL of its close order (R64, R71). -/
def seqCloseFailed (p : Part) : Part := if p.seq.state = .closing then enterFailed p else p

/-- The Sequencer takes the outcome RELEASED of its close order (R64). -/
def seqReleased (p : Part) : Part := if p.seq.state = .closing then enterLockout .blocked p else p

/-- The Sequencer takes the outcome TRIP_FAIL of its trip order (R59, R71). -/
def seqTripFailed (p : Part) : Part := if p.seq.state = .tripping then enterFailed p else p

/-- Posture hands the Sequencer a change of the effective level (R68). -/
def seqLevelChanged (p : Part) : Part :=
  if p.posture.level = .ban && (p.seq.state = .deadTime || p.seq.state = .closeWait) then enterLockout .fireBan p else p

/-- A pending shot under new settings (R69). -/
def seqRetimeShot (k : Nat) (p : Part) : Part :=
  if p.settings.shots.getD 0 < k then enterLockout .settings p
  else if p.seq.openingMoment.getD 0 + p.settings.deadTime k ≤ p.clock then
    if p.seq.state = .deadTime then deadTimeEnded p else p
  else
    { p with
      seq :=
        { p.seq with
          state := .deadTime
          deadTimer := some (p.seq.openingMoment.getD 0 + p.settings.deadTime k)
          closeWaitTimer := none } }

/-- A reclaim under new settings (R70). -/
def seqRetimeReclaim (p : Part) : Part :=
  if p.seq.closeMoment.getD 0 + p.settings.reclaimTime.getD 0 * 1000 ≤ p.clock then reclaimEnded p
  else
    { p with
      seq := { p.seq with reclaimTimer := some (p.seq.closeMoment.getD 0 + p.settings.reclaimTime.getD 0 * 1000) } }

/-- Posture hands the Sequencer a change of the active settings (R69, R70). -/
def seqSettingsChanged (p : Part) : Part :=
  match p.seq.state with
  | .deadTime => seqRetimeShot (p.seq.pendingShot.getD 0) p
  | .closeWait => seqRetimeShot (p.seq.pendingShot.getD 0) p
  | .reclaim => seqRetimeReclaim p
  | _ => p

/-- The announcement of an accepted RESET MECHANISM (R72). -/
def seqMechanismReset (p : Part) : Part :=
  if p.seq.state = .failed then
    match p.position with
    | .opened => enterLockout .mechanismReset p
    | .closed => enterClosed p
    | _ => p
  else p

/-- An external open (R73). -/
def seqExternalOpen (p : Part) : Part :=
  match p.seq.state with
  | .closed => enterLockout .externalOpen { p with seq := { p.seq with openingMoment := some p.clock } }
  | .reclaim => enterLockout .externalOpen { p with seq := { p.seq with openingMoment := some p.clock } }
  | _ => p

/-- An external close (R74). -/
def seqExternalClose (p : Part) : Part :=
  match p.seq.state with
  | .lockout => enterClosed p
  | .deadTime => enterClosed p
  | .closeWait => enterClosed p
  | _ => p

end Sys2Proof.Machine
end

