-- ==== Sys2Proof/Machine/Hunt.lean ====
section
/-! DEFINITION. The Hunt (07_earth_fault_hunt.md), with the part-owned block placements that it takes part in (R85). A rule
that the Hunt's text gives as "whenever" or "at" an event is a function here that the event's operation calls. -/

namespace Sys2Proof.Machine

/-! ## Part-owned entries (R85, R87) -/

/-- A part-owned entry joins the end of the list, and BLOCKS is raised (R84 items 4 and 7, R85). -/
def joinPart (k : BlockKind) (p : Part) : Part :=
  raise .blocks { p with entries := p.entries ++ [⟨k, .part, 0, p.uptime, none, none, none⟩] }

/-- A part-owned entry is removed, if it is there, and BLOCKS is raised (R87). -/
def removePart (k : BlockKind) (p : Part) : Part :=
  if p.hasBlock k then raise .blocks { p with entries := p.entries.filter (·.kind ≠ k) } else p

/-! ## The section table read -/

/-- An entry that holds nothing (R122); that its operable flag reads NO is the model's (DESIGN CHOICE, log entry 32). -/
def emptySwitch : SwitchEntry := ⟨none, false, .unknown⟩

/-- Position k of the table (R122). -/
def SectionTable.switch (t : SectionTable) (k : Nat) : SwitchEntry :=
  if k = 0 then emptySwitch else t.switches.getD (k - 1) emptySwitch

/-- The believed state of position k. -/
def Part.believed (p : Part) (k : Nat) : Believed := (p.table.switch k).believed

/-- The positions in use, 1 to n (R122). -/
def SectionTable.positions (t : SectionTable) : List Nat := List.range' 1 (t.n.getD 0)

/-- The table with one position's believed state set (R126, R136). -/
def SectionTable.withBelieved (t : SectionTable) (k : Nat) (b : Believed) : SectionTable :=
  { t with switches := t.switches.modify (k - 1) fun e => { e with believed := b } }

/-- The lowest of positions 1 to k whose believed state is not CLOSED (R132, R142). -/
def Part.lowestNotClosed (p : Part) (k : Nat) : Option Nat :=
  (List.range' 1 k).find? fun j => p.believed j ≠ .closed

/-! ## The Hunt's trips and hand-back -/

/-- Whether a hunt is running (R127). -/
def HuntState.running : HuntState → Bool
  | .ordering => true
  | .testing => true
  | .testTrip => true
  | .restoring => true
  | _ => false

/-- What called for a trip of the Hunt: its cause set, requesting master and lanes (R143). -/
structure TripCall where
  causes : Causes
  requester : Option Master
  highsetLanes : Phases Bool
  sotfLanes : Quad Bool
deriving DecidableEq, Repr

/-- A trip of the Hunt that nothing of R143's list called for: an empty cause set. -/
def emptyCall : TripCall := ⟨{}, none, noPhases, noLanes⟩

/-- A trip a master called for (R143). -/
def manualCall (m : Master) : TripCall := ⟨manualCause, some m, noPhases, noLanes⟩

/-- A trip a decision called for (R143). -/
def decisionCall (d : Decision) : TripCall := ⟨d.causes, none, d.highsetLanes, d.sotfLanes⟩

/-- A trip order of the Hunt's, with its record and TRIP (R143). -/
def huntTrip (c : TripCall) (p : Part) : Part × TripAnswer :=
  match placeTrip .hunt p with
  | (q, .inProgress) => (q, .inProgress)
  | (q, answer) =>
    let r := raise .trip (writeRecord ⟨.hunt, c.causes, c.requester, c.highsetLanes, c.sotfLanes, 0⟩ q)
    (if answer = .alreadyOpen then completeRecord .opened r else r, answer)

/-- The Hunt hands the breaker back (R76), and tells Elements (R33). -/
def handBack (named : HandBack) (p : Part) : Part := seqHandBack named (elementsHandBack p)

/-- With hand-back pending, the breaker is handed back naming LOCKOUT (R147). -/
def handBackPendingDone (p : Part) : Part :=
  if p.hunt.handBackPending then
    handBack .lockout { p with hunt := { p.hunt with handBackPending := false } }
  else p

/-- The last hunt result written (R148). -/
def writeResult (outcome : HuntOutcome) (reason : HuntReason) (detail : Option HuntDetail) (p : Part) : Part :=
  { p with
    hunt :=
      { p.hunt with
        result :=
          some
            { outcome := outcome
              reason := reason
              detail := detail
              startedBy := p.hunt.startedBy
              lo := p.hunt.lo
              hi := p.hunt.hi
              testsUsed := p.hunt.testsUsed
              testLimit := p.hunt.testLimit.getD 0
              ordersIssued := p.hunt.ordersIssued
              unusable := p.hunt.unusable } } }

/-- An abandonment, items 1 to 4 (R146). -/
def abandonStart (reason : HuntReason) (detail : Option HuntDetail) (p : Part) : Part :=
  raise .huntEnd
    (removePart .hunt
      (writeResult .abandoned reason detail
        { p with
          hunt :=
            { p.hunt with
              outstanding := none
              orderTimer := none
              closeWaitTimer := none
              closeDue := .none
              state := .abandoned } }))

/-- Hand-back pending, and the abandonment's trip (R146, item 7; R147). -/
def abandonTrip (c : TripCall) (p : Part) : Part :=
  match huntTrip c { p with hunt := { p.hunt with handBackPending := true } } with
  | (q, .alreadyOpen) => handBackPendingDone q
  | (q, _) => q

/-- A running hunt is abandoned (R145, R146). -/
def abandon (reason : HuntReason) (detail : Option HuntDetail) (c : TripCall) (p : Part) : Part :=
  let q := abandonStart reason detail p
  if reason = .mechanism then handBack .lockout q
  else if q.position = .opened && !(q.mech.order = .close && q.mech.placer = some .hunt) then handBack .lockout q
  else abandonTrip c q

/-- A hunt is abandoned if it is running; a hunt that is not takes the event as nothing (R145). -/
def abandonIfRunning (reason : HuntReason) (detail : Option HuntDetail) (c : TripCall) (p : Part) : Part :=
  if p.hunt.state.running then abandon reason detail c p else p

/-- The Hunt is handed a MECHANISM placement (R145, R147). -/
def huntMechanismPlaced (p : Part) : Part :=
  if p.hunt.state.running then abandon .mechanism none emptyCall p else handBackPendingDone p

/-! ## Placements by the part (R85) -/

/-- Mechanism places MECHANISM, if it is absent (R44, R48, R50, R85). -/
def placeMechanism (p : Part) : Part :=
  if p.hasBlock .mechanism then p else joinPart .mechanism (huntMechanismPlaced (seqBlockPlaced .mechanism p))

/-- Intake places MEASURE, if it is absent (R12, R85). -/
def placeMeasure (p : Part) : Part :=
  if p.hasBlock .measure then p else joinPart .measure (seqBlockPlaced .measure p)

/-- The Hunt places HUNT, if it is absent (R85, R130). -/
def placeHunt (p : Part) : Part :=
  if p.hasBlock .hunt then p else joinPart .hunt (seqBlockPlaced .hunt p)

/-! ## Switch orders and closes due -/

/-- A switch order issued (R132): only with the position OPEN, and only to a switch CONTROL can operate.
(DEDUCED, log entry 21.) -/
def issueOrder (k : Nat) (action : SwitchAction) (p : Part) : Part :=
  if p.position ≠ .opened then abandon .positionNotOpen none emptyCall p
  else if !(p.table.switch k).operable then abandon .switchNotOperable none emptyCall p
  else
    raise .huntOrder
      { p with
        hunt :=
          { p.hunt with
            outstanding := some ⟨p.hunt.nextOrder, k, (p.table.switch k).ident.getD 0, action⟩
            nextOrder := p.hunt.nextOrder + 1
            ordersIssued := min (p.hunt.ordersIssued + 1) 255
            orderTimer := p.timer (p.table.timeout.getD 0 * 1000) } }

/-- The conditions of the close due (R137). -/
def Part.closeConditions (p : Part) : Bool :=
  p.mech.energyHigh && (p.hunt.closeDue ≠ .test || p.intake.sourceLive)

/-- The test close placed (R138). -/
def placeTestClose (p : Part) : Part :=
  match placeClose .hunt .huntTest p with
  | (q, some why) => abandon .closeRefused (some (.refusal why)) emptyCall q
  | (q, none) =>
    { q with
      hunt :=
        { q.hunt with
          state := .testing
          testsUsed := q.hunt.testsUsed + 1
          closeDue := .none
          closeWaitTimer := none
          settleCount := 0
          windowCount := 0
          windowSum := 0
          windowUnavailable := false } }

/-- The close of restoration placed (R143). -/
def placeRestoreClose (p : Part) : Part :=
  match placeClose .hunt .huntRestore p with
  | (q, some why) => abandon .closeRefused (some (.refusal why)) emptyCall q
  | (q, none) => { q with hunt := { q.hunt with closeDue := .none, closeWaitTimer := none } }

/-- The close due placed (R137). -/
def placeDueClose (p : Part) : Part :=
  match p.hunt.closeDue with
  | .none => p
  | .test => placeTestClose p
  | .restore => placeRestoreClose p

/-- A close becomes due (R137): it is placed at once, or the close-wait timer starts for 10 s. -/
def closeBecomesDue (due : CloseDue) (p : Part) : Part :=
  let q : Part := { p with hunt := { p.hunt with closeDue := due } }
  if q.closeConditions then placeDueClose q else { q with hunt := { q.hunt with closeWaitTimer := q.timer 10000 } }

/-- The Hunt takes a change of source-live or energy-ready (R137): the close that is due is placed, and the configuration is
not derived again (DESIGN CHOICE, log entry 33). -/
def huntConditionsChanged (p : Part) : Part :=
  if p.hunt.closeWaitTimer.isSome && p.closeConditions then placeDueClose p else p

/-! ## Probes, restoration and conclusion -/

/-- The next order of a probe's configuration, or its test close (R132). -/
def deriveOrder (p : Part) : Part :=
  match p.hunt.probe with
  | none => p
  | some m =>
    match p.lowestNotClosed (m - 1) with
    | some j => issueOrder j .closeSwitch p
    | none => if p.believed m ≠ .opened then issueOrder m .openSwitch p else closeBecomesDue .test p

/-- The hunt concludes (R144), handing back CLOSED or LOCKOUT. -/
def conclude (named : HandBack) (p : Part) : Part :=
  handBack named
    (raise .huntEnd
      (removePart .hunt
        (writeResult (if p.hunt.lo = p.hunt.hi then .concludedSection else .concludedRange) p.hunt.restoreReason none
          { p with hunt := { p.hunt with state := .concluded } })))

/-- The next step of restoration (R142). -/
def restoreStep (p : Part) : Part :=
  if p.hunt.lo = 0 then conclude .lockout p
  else if p.believed p.hunt.lo ≠ .opened then issueOrder p.hunt.lo .openSwitch p
  else
    match p.lowestNotClosed (p.hunt.lo - 1) with
    | some j => issueOrder j .closeSwitch p
    | none => closeBecomesDue .restore p

/-- Restoration entered (R142). -/
def enterRestoration (reason : HuntReason) (p : Part) : Part :=
  restoreStep { p with hunt := { p.hunt with state := .restoring, probe := none, restoreReason := reason } }

/-- The distance of a probe from the middle of the sections in doubt, |2m − (lo + hi + 1)| (R131). -/
def probeScore (lo hi m : Nat) : Nat := (2 * m - (lo + hi + 1)) + ((lo + hi + 1) - 2 * m)

/-- The positions a probe may be chosen from (R131, item 3). -/
def Part.candidates (p : Part) : List Nat :=
  (List.range' (p.hunt.lo + 1) (p.hunt.hi - p.hunt.lo)).filter fun m =>
    (p.table.switch m).operable && !hasPosition p.hunt.unusable m

/-- The candidate with the smallest score, the lower on a tie (R131). -/
def bestProbe (lo hi : Nat) : List Nat → Option Nat
  | [] => none
  | m :: rest =>
    match bestProbe lo hi rest with
    | none => some m
    | some m' => if probeScore lo hi m ≤ probeScore lo hi m' then some m else some m'

/-- The next step planned (R131): restoration, or a probe. -/
def plan (p : Part) : Part :=
  if p.hunt.lo = p.hunt.hi then enterRestoration .sectionFound p
  else if some p.hunt.testsUsed = p.hunt.testLimit then enterRestoration .limitReached p
  else
    match bestProbe p.hunt.lo p.hunt.hi p.candidates with
    | none => enterRestoration .noCandidate p
    | some m => deriveOrder { p with hunt := { p.hunt with probe := some m, doubtfulSeen := false, state := .ordering } }

/-! ## The start -/

/-- The first start condition not met (R128). -/
def startRefusal (p : Part) : Option Why :=
  if p.seq.state ≠ .lockout then some .notLockout
  else if p.hunt.state.running then some .huntRunning
  else if p.table.state ≠ .ready then some .tableNotReady
  else if !(p.table.positions.all fun k => p.believed k = .closed) then some .switchNotClosed
  else if p.hasBlock .hotLine then some .hotLine
  else if p.hasBlock .mechanism then some .mechanismBlocked
  else if p.hasBlock .measure then some .measureLost
  else if p.posture.level = .ban then some .fireBan
  else if p.posture.silent then some .controlSilent
  else if !p.mech.energyHigh then some .energyLow
  else none

/-- A hunt starts, items 1 to 3 (R130). -/
def huntInit (starter : StartedBy) (p : Part) : Part :=
  { p with
    hunt :=
      { p.hunt with
        state := .ordering
        startedBy := starter
        lo := 0
        hi := p.table.n.getD 0
        testsUsed := 0
        ordersIssued := 0
        unusable := 0
        handBackPending := false
        testLimit := p.settings.huntTestLimit
        testPickup := p.settings.sefPickup } }

/-- The start handed to the Sequencer (R75). -/
def seqHuntStarted (p : Part) : Part := { p with seq := { p.seq with state := .huntHeld, failureNoted := false } }

/-- A hunt starts (R130). -/
def beginHunt (starter : StartedBy) (p : Part) : Part := plan (seqHuntStarted (placeHunt (huntInit starter p)))

/-- The Sequencer's offer of an SEF lockout (R129). -/
def offerHunt (p : Part) : Part := if startRefusal p = none then beginHunt .automatic p else p

/-! ## The test -/

/-- A test result (R139, R140). -/
inductive TestResult where
  | present
  | clear
  | doubtful
deriving DecidableEq, Repr

/-- A result taken as it is applied: a second DOUBTFUL is PRESENT (R139). -/
def takenResult (doubtfulSeen : Bool) (r : TestResult) : TestResult :=
  if r = .doubtful && doubtfulSeen then .present else r

/-- The result of a test window (R139). -/
def windowResult (h : Hunt) (sum : Nat) : TestResult :=
  if h.windowUnavailable then .doubtful
  else if h.testPickup.getD 0 ≤ sum / 20 then .present
  else if sum / 20 < h.testPickup.getD 0 * 9 / 10 then .clear
  else .doubtful

/-- Whether the test trip in progress follows a first DOUBTFUL, which left the probe within the range (R141, DEDUCED, log entry 23). -/
def Hunt.retests (h : Hunt) : Bool :=
  match h.probe with
  | some m => h.lo < m && m ≤ h.hi
  | none => false

/-- The Hunt takes the outcome OPENED of its trip order (R141, R147). -/
def huntOpened (p : Part) : Part :=
  if p.hunt.handBackPending then handBackPendingDone p
  else if p.hunt.state = .testTrip then
    if p.hunt.retests then
      if some p.hunt.testsUsed = p.hunt.testLimit then enterRestoration .limitReached p
      else deriveOrder { p with hunt := { p.hunt with state := .ordering } }
    else plan p
  else p

/-- The range after a result (R141). -/
def applyResult (r : TestResult) (h : Hunt) : Hunt :=
  match r with
  | .present => { h with state := .testTrip, hi := h.probe.getD 0 - 1 }
  | .clear => { h with state := .testTrip, lo := h.probe.getD 0 }
  | .doubtful => { h with state := .testTrip, doubtfulSeen := true }

/-- A test result taken: the range, TEST_TRIP and the trip order (R139, R141). -/
def testResult (r : TestResult) (c : TripCall) (p : Part) : Part :=
  match huntTrip c { p with hunt := applyResult (takenResult p.hunt.doubtfulSeen r) p.hunt } with
  | (q, .alreadyOpen) => huntOpened q
  | (q, _) => q

/-- The 20th window step's end (R139). -/
def windowEnded (sum : Nat) (p : Part) : Part := testResult (windowResult p.hunt sum) emptyCall p

/-- Whether the test close has completed, so that steps are settle and window steps (R139, DEDUCED, log entry 22). -/
def Part.settling (p : Part) : Bool := p.hunt.state = .testing && p.mech.order = .none

/-- The Hunt takes a running step of a test (R34, R139). -/
def huntStep (residual : Channel) (p : Part) : Part :=
  if p.settling then
    if p.hunt.settleCount < 5 then { p with hunt := { p.hunt with settleCount := p.hunt.settleCount + 1 } }
    else
      let q : Part :=
        { p with
          hunt :=
            { p.hunt with
              windowCount := p.hunt.windowCount + 1
              windowSum := p.hunt.windowSum + residual.magnitude.getD 0
              windowUnavailable := p.hunt.windowUnavailable || !residual.available } }
      if 20 ≤ q.hunt.windowCount then windowEnded q.hunt.windowSum q else q
  else p

/-- A trip decision reaches the Hunt (R140). -/
def huntDecision (d : Decision) (p : Part) : Part :=
  match p.hunt.state with
  | .testing =>
    if d.causes.highset || anyPhaseLane d.sotfLanes then abandon .otherFault none (decisionCall d) p
    else if d.sotfLanes.n then testResult .present (decisionCall d) p
    else p
  | .restoring => if p.mech.order = .close then abandon .restoreTrip none (decisionCall d) p else p
  | _ => p

/-- The Hunt takes the outcome CLOSED of its close order (R138, R143). -/
def huntCloseDone (p : Part) : Part := if p.hunt.state = .restoring then conclude .closed p else p

/-- The Hunt takes the outcome RELEASED of its close order (R138, R143). -/
def huntReleased (p : Part) : Part := abandonIfRunning .hotLine none emptyCall p

/-! ## Reports -/

/-- The state a switch is required to have while a hunt runs (R135). -/
def requiredState (h : Hunt) (k : Nat) : Option Believed :=
  match h.state with
  | .restoring => if h.lo = 0 then none else if k < h.lo then some .closed else if k = h.lo then some .opened else none
  | .ordering | .testing | .testTrip =>
    match h.probe with
    | some m => if k < m then some .closed else if k = m then some .opened else none
    | none => none
  | _ => none

/-- Whether a position left its required state between two tables (R135). -/
def disturbedAt (h : Hunt) (before after : SectionTable) (k : Nat) : Bool :=
  match requiredState h k with
  | some b => (before.switch k).believed = b && (after.switch k).believed ≠ b
  | none => false

/-- A report with no reference, weighed as a disturbance (R135). -/
def weighDisturbance (before : SectionTable) (p : Part) : Part :=
  if p.hunt.state.running && p.table.positions.any (disturbedAt p.hunt before p.table) then
    abandon .switchDisturbed none emptyCall p
  else p

/-- The outstanding order ends (R134, R136). -/
def endSwitchOrder (p : Part) : Part := { p with hunt := { p.hunt with outstanding := none, orderTimer := none } }

/-- A report that answers the outstanding order (R134). -/
def orderAnswered (o : SwitchOrder) (reported : Believed) (p : Part) : Part :=
  let q := endSwitchOrder p
  let next : Part := if q.hunt.state = .restoring then restoreStep q else deriveOrder q
  match o.action, reported with
  | .openSwitch, .opened => next
  | .closeSwitch, .closed => next
  | .openSwitch, _ =>
    if q.hunt.state = .restoring then abandon .switchFailed none emptyCall q
    else plan { q with hunt := { q.hunt with unusable := addPosition q.hunt.unusable o.position } }
  | .closeSwitch, _ => abandon .switchFailed none emptyCall q

/-- The hunt order timer's expiry taken (R136). -/
def orderTimerEnded (p : Part) : Part :=
  match p.hunt.outstanding with
  | some o =>
    abandonIfRunning .orderTimeout none emptyCall
      (endSwitchOrder { p with table := p.table.withBelieved o.position .unknown })
  | none => endSwitchOrder p

/-- The hunt close-wait timer's expiry taken (R137). -/
def huntCloseWaitEnded (p : Part) : Part :=
  abandonIfRunning .closeWaitExpired none emptyCall { p with hunt := { p.hunt with closeWaitTimer := none } }

end Sys2Proof.Machine
end

