-- ==== Sys2Proof/Machine/Trips.lean ====
section
/-! DEFINITION. The Sequencer's trips (R55 to R59): the one procedure that places them, the decisions and requests that call
for them, and the opening that follows. -/

namespace Sys2Proof.Machine

/-- The lockout reason of a forced lockout (R59). -/
def Forced.reason : Forced → LockoutReason
  | .manualTrip => .manualTrip
  | .measureLoss => .measureLoss
  | .closeOntoFault => .closeOntoFault

/-- The cause set of the last trip; empty with none noted. -/
def Sequencer.causes (q : Sequencer) : Causes :=
  match q.lastTrip with
  | some t => t.causes
  | none => {}

/-- Entry to LOCKOUT with TRIP_CAUSE, with the offer to the Hunt (R60, item 5). -/
def lockoutOnCause (p : Part) : Part :=
  let q := enterLockout .tripCause p
  if p.seq.causes.sef && p.settings.autoHunt = some 1 then offerHunt q else q

/-- Entry to DEAD_TIME with pending shot k (R59, R61). -/
def enterDeadTime (k : Nat) (p : Part) : Part :=
  { p with
    seq :=
      { p.seq with
        state := .deadTime
        pendingShot := some k
        deadTimer := some (p.seq.openingMoment.getD 0 + p.settings.deadTime k) } }

/-- What follows a completed opening: the four conditions in order, then DEAD_TIME (R59). -/
def chooseShot (p : Part) : Part :=
  match p.seq.forced with
  | some f => enterLockout f.reason p
  | none =>
    if !p.seq.causes.reclosable then lockoutOnCause p
    else if p.settings.shots.getD 0 < p.seq.shotsUsed + 1 then enterLockout .shotsExhausted p
    else if !p.entries.isEmpty then enterLockout .blocked p
    else enterDeadTime (p.seq.shotsUsed + 1) p

/-- The Sequencer takes the outcome OPENED of its trip order (R59). -/
def seqOpened (p : Part) : Part :=
  if p.seq.state = .tripping then chooseShot { p with seq := { p.seq with openingMoment := some p.clock } } else p

/-- What the Sequencer notes as its trip order is accepted (R55). -/
def noteTrip (last : LastTrip) (forced : Option Forced) (p : Part) : Part :=
  { p with seq := { p.seq with lastTrip := some last, forced := forced } }

/-- TRIPPING is entered, but for a retry placed in FAILED, and the timers stop (R55). -/
def enterTripping (p : Part) : Part :=
  { p with
    seq :=
      { p.seq with
        state := if p.seq.state = .failed then .failed else .tripping
        deadTimer := none
        closeWaitTimer := none
        reclaimTimer := none } }

/-- The acts of an accepted trip order (R55). -/
def tripAccepted (last : LastTrip) (forced : Option Forced) (p : Part) : Part :=
  enterTripping
    (raise .trip
      (writeRecord ⟨last.origin, last.causes, last.requester, last.highsetLanes, last.sotfLanes, p.seq.shotsUsed⟩
        (noteTrip last forced p)))

/-- A trip order of the Sequencer's (R55), with Mechanism's answer. -/
def seqTrip (last : LastTrip) (forced : Option Forced) (p : Part) : Part × TripAnswer :=
  match placeTrip .sequencer p with
  | (q, .accepted) => (tripAccepted last forced q, .accepted)
  | (q, .alreadyOpen) => (seqOpened (completeRecord .opened (tripAccepted last forced q)), .alreadyOpen)
  | (q, .inProgress) => (q, .inProgress)

/-- The last trip of a decision (R55). -/
def decisionTrip (d : Decision) : LastTrip := ⟨.elements, none, d.causes, d.highsetLanes, d.sotfLanes⟩

/-- The last trip of a TRIP request (R55). -/
def manualTripOf (m : Master) : LastTrip := ⟨.manual, some m, manualCause, noPhases, noLanes⟩

/-- The last trip of Intake's request (R55). -/
def measureLossTrip : LastTrip := ⟨.measureLoss, none, measureLossCause, noPhases, noLanes⟩

/-- A trip decision taken by the Sequencer (R56). -/
def seqDecision (d : Decision) (p : Part) : Part :=
  match p.seq.state with
  | .closed => (seqTrip (decisionTrip d) none p).1
  | .reclaim => (seqTrip (decisionTrip d) none p).1
  | .closing =>
    (seqTrip (decisionTrip d) (if p.seq.purpose = .manual then some .closeOntoFault else none) p).1
  | .huntHeld => huntDecision d p
  | _ => p

/-- The trip in progress is given a forced lockout, unless it has one (R57, R58). -/
def forceLockout (f : Forced) (p : Part) : Part :=
  { p with seq := { p.seq with forced := match p.seq.forced with
                                         | some g => some g
                                         | none => some f } }

/-- Intake's request for a trip, taken by the Sequencer (R57). -/
def seqMeasureLoss (p : Part) : Part :=
  match p.seq.state with
  | .closed => (seqTrip measureLossTrip (some .measureLoss) p).1
  | .reclaim => (seqTrip measureLossTrip (some .measureLoss) p).1
  | .tripping => forceLockout .measureLoss p
  | .failed => if p.position = .closed then (seqTrip measureLossTrip (some .measureLoss) p).1 else p
  | _ => p

/-- The results of TRIP (R58). -/
inductive TripResult where
  | placed
  | alreadyOpen
  | inProgress
  | huntAbandoned
deriving DecidableEq, Repr

/-- The numbers of the results (R186). -/
def TripResult.code : TripResult → Nat
  | .placed => 0
  | .alreadyOpen => 1
  | .inProgress => 2
  | .huntAbandoned => 3

/-- A TRIP request taken by the Sequencer (R58). -/
def seqTripRequest (m : Master) (p : Part) : Part × TripResult :=
  let place : Part := (seqTrip (manualTripOf m) (some .manualTrip) p).1
  match p.seq.state with
  | .closed => (place, .placed)
  | .reclaim => (place, .placed)
  | .closing => (place, .placed)
  | .tripping => (forceLockout .manualTrip p, .inProgress)
  | .deadTime => (enterLockout .manualTrip p, .alreadyOpen)
  | .closeWait => (enterLockout .manualTrip p, .alreadyOpen)
  | .lockout => if p.position = .opened then (p, .alreadyOpen) else (place, .placed)
  | .huntHeld => (abandonIfRunning .manual (some (.master m)) (manualCall m) p, .huntAbandoned)
  | .failed =>
    if p.position = .opened then (p, .alreadyOpen)
    else (place, if p.mech.order = .trip then .inProgress else .placed)

end Sys2Proof.Machine
end

