-- ==== Sys2Proof/Machine/Posture.lean ====
section
/-! DEFINITION. Posture (06_settings_groups_and_fire_posture.md): selection and its hand-overs, the inputs, and the requests
that Posture owns. A request answers with the part after it and the reply. -/

namespace Sys2Proof.Machine

/-! ## Selection -/

/-- The effective fire level from its three inputs (R114). -/
def formLevel (s : Season) (declared : Level) (silent : Bool) (localRaise : Level) : Level :=
  match s with
  | .fireSeason => (declared.max (if silent then .elevated else .none)).max localRaise
  | .offSeason => localRaise

/-- The effective fire level that a posture's inputs form (R114). -/
def Posture.formed (q : Posture) : Level := formLevel q.season q.declared q.silent q.localRaise

/-- The wanted group (R116). -/
def wantedGroup (hotLine : Bool) (l : Level) : GroupId :=
  if hotLine then .g3
  else
    match l with
    | .none => .g0
    | .elevated => .g1
    | .ban => .g2

/-- The groups from one upward, in order (R116). -/
def climb : GroupId → List GroupId
  | .g0 => [.g0, .g1, .g2, .g3]
  | .g1 => [.g1, .g2, .g3]
  | .g2 => [.g2, .g3]
  | .g3 => [.g3]

/-- The first READY group from a wanted one upward, or FALLBACK (R116). -/
def selected (groups : FourGroups Group) (wanted : GroupId) : Active :=
  match (climb wanted).find? fun g => (groups.get g).state = .ready with
  | some g => .group g
  | none => .fallback

/-- A posture with its effective level, wanted group and active settings formed afresh (R114, R116). -/
def Posture.select (q : Posture) : Posture :=
  { q with
    level := q.formed
    wanted := wantedGroup q.hotLinePresent q.formed
    active := selected q.groups (wantedGroup q.hotLinePresent q.formed) }

/-- The Hunt takes a change of the effective level (R145, R119). -/
def huntLevelChanged (p : Part) : Part :=
  if p.posture.level = .ban then abandonIfRunning .fireBan none emptyCall p else p

/-- A changed level handed to the Sequencer and to the Hunt (R118, item 2). -/
def announceLevel (p : Part) : Part := huntLevelChanged (seqLevelChanged p)

/-- Changed active settings handed to Elements and to the Sequencer (R118, item 3). -/
def announceSettings (p : Part) : Part := seqSettingsChanged (elementsSettings p)

/-- What a recomputation hands on and raises, by what moved (R118, items 2 to 4). -/
def announceMoves (levelMoved settingsMoved : Bool) (p : Part) : Part :=
  let q := if levelMoved then announceLevel p else p
  let q := if settingsMoved then announceSettings q else q
  if levelMoved || settingsMoved then raise .posture q else q

/-- Selection recomputed (R118). -/
def recompute (p : Part) : Part :=
  announceMoves (p.posture.select.level ≠ p.posture.level) (p.posture.select.active ≠ p.posture.active)
    { p with posture := p.posture.select }

/-! ## Inputs -/

/-- A well-formed request of CONTROL handed over (R112, R180). -/
def controlHeard (p : Part) : Part :=
  let q : Part := { p with posture := { p.posture with silenceTimer := p.timer (p.posture.silenceMinutes * 60000) } }
  if q.posture.silent then recompute { q with posture := { q.posture with silent := false } } else q

/-- The silence timer's expiry taken (R112). -/
def silenceEnded (p : Part) : Part :=
  recompute { p with posture := { p.posture with silent := true, silenceTimer := none } }

/-- The declaration's expiry taken (R110). -/
def declarationEnded (p : Part) : Part :=
  recompute { p with posture := { p.posture with declared := .none, declaredExpiry := none } }

/-- Blocks tells whether a HOT_LINE is present (R115). -/
def tellHotLine (present : Bool) (p : Part) : Part :=
  recompute { p with posture := { p.posture with hotLinePresent := present } }

/-! ## Groups -/

/-- A group replaced. -/
def setGroup (g : GroupId) (x : Group) (p : Part) : Part :=
  { p with posture := { p.posture with groups := p.posture.groups.set g x } }

/-- The record that a write to a group begins from (R97, R100). -/
def Group.base (x : Group) : Settings :=
  match x.state with
  | .empty => defaultRecord
  | .editing => x.working.getD defaultRecord
  | .ready => x.image.getD defaultRecord

/-- What a written value puts into a field: nothing for a dead time written 0 (R99, R100). -/
def fieldValue (number v : Nat) : Option Nat := if isDeadTime number && v = 0 then none else some v

/-- A group after an accepted write (R100). -/
def Group.written (x : Group) (number v : Nat) : Group :=
  { x with state := .editing, working := some (x.base.withField number (fieldValue number v)) }

/-- WRITE SETTING to a group (R99, R100). -/
def writeGroup (g : GroupId) (number v : Nat) (p : Part) : Part × Reply :=
  if !fieldAccepts number v then (p, Reply.bare .outOfRange)
  else if p.posture.active = .group g then (p, Reply.bare .groupActive)
  else
    (raise .settings (recompute (setGroup g ((p.posture.groups.get g).written number v) p)), Reply.done [])

/-- WRITE SETTING to POSTURE (R99, R113). -/
def writePosture (number v : Nat) (p : Part) : Part × Reply :=
  if number = 1 && within 1 120 v then
    (raise .settings { p with posture := { p.posture with silenceMinutes := v } }, Reply.done [])
  else (p, Reply.bare .outOfRange)

/-- WRITE SETTING (R99, R100, R113). -/
def askWriteSetting (target field : Byte) (value : Long) (p : Part) : Part × Reply :=
  match targetOf target.toNat with
  | some (.group g) => writeGroup g field.toNat value.toNat p
  | some .posture => writePosture field.toNat value.toNat p
  | some .fallback => (p, Reply.bare .outOfRange)
  | none => (p, Reply.bare .outOfRange)

/-- The lowest absent field other than the dead times (R103, check 1). -/
def lowestAbsent (s : Settings) : Option Nat :=
  (List.range' 1 21).find? fun number => !isDeadTime number && (s.field number).isNone

/-- The lowest absent dead time among 1 to the shots, by its field number (R103, check 4). -/
def lowestAbsentDeadTime (s : Settings) : Option Nat :=
  (List.range' 12 (min (s.shots.getD 0) 3)).find? fun number => (s.field number).isNone

/-- Checks 5 and 6 of R103, by group. -/
def groupCheck (g : GroupId) (s : Settings) : Option Nat :=
  match g with
  | .g0 => none
  | .g1 => if s.shots.getD 0 ≤ 1 then none else some 6
  | _ =>
    if s.shots.getD 0 = 0 && s.autoHunt.getD 0 = 0 && s.coldLoadMultiplier.getD 0 = 100 then none else some 5

/-- The first failing check of a group's working record, with the field it reports (R103). -/
def failingCheck (g : GroupId) (s : Settings) : Option (Nat × Nat) :=
  match lowestAbsent s with
  | some number => some (1, number)
  | none =>
    if s.highsetLevel.getD 0 ≠ 0 && s.highsetLevel.getD 0 ≤ s.phasePickup.getD 0 then some (2, 0)
    else if s.earthPickup.getD 0 ≤ s.sefPickup.getD 0 then some (3, 0)
    else
      match lowestAbsentDeadTime s with
      | some number => some (4, number)
      | none => (groupCheck g s).map fun check => (check, 0)

/-- A confirmation whose checks pass (R104). -/
def confirmed (k : LinkId) (g : GroupId) (s : Settings) (p : Part) : Part × Reply :=
  (raise .settings
      (recompute (queueWrite (.group g (some s)) (some k) (setGroup g ⟨.ready, some s, some s⟩ p))),
    ⟨.done, [byte 0], true⟩)

/-- CONFIRM GROUP of a group G0 to G3 (R102). -/
def confirmGroup (k : LinkId) (g : GroupId) (p : Part) : Part × Reply :=
  match (p.posture.groups.get g).state with
  | .empty => (p, Reply.check 1 1)
  | .ready => (p, Reply.done [byte 1])
  | .editing =>
    match failingCheck g (p.posture.groups.get g).base with
    | some (check, number) => (p, Reply.check check number)
    | none => confirmed k g (p.posture.groups.get g).base p

/-- CONFIRM GROUP (R102 to R104). -/
def askConfirmGroup (k : LinkId) (group : Byte) (p : Part) : Part × Reply :=
  match groupOf group.toNat with
  | some g => confirmGroup k g p
  | none => (p, Reply.bare .outOfRange)

/-- The record that READ SETTING reads of a group: its working record, absent while EMPTY (R106). -/
def Group.shown (x : Group) : Settings :=
  match x.state with
  | .empty => absentRecord
  | .editing => x.working.getD absentRecord
  | .ready => x.image.getD absentRecord

/-- The value that READ SETTING shows for a field of a record, or OUT_OF_RANGE (R106, R191). -/
def readField (s : Settings) (number : Nat) : Reply :=
  if within 1 21 number then Reply.done (bytes4OrNone (s.field number)) else Reply.bare .outOfRange

/-- READ SETTING (R106). -/
def askReadSetting (target field : Byte) (p : Part) : Reply :=
  match targetOf target.toNat with
  | some (.group g) => readField (p.posture.groups.get g).shown field.toNat
  | some .fallback => readField fallback field.toNat
  | some .posture =>
    if field.toNat = 1 then Reply.done (bytes4 p.posture.silenceMinutes) else Reply.bare .outOfRange
  | none => Reply.bare .outOfRange

/-- Two bytes of READ GROUP STATE for one group (R191). -/
def Group.stateBytes (x : Group) : List Byte := [byte x.state.code, byte (flag x.image.isSome)]

/-- READ GROUP STATE (R106, R191). -/
def askReadGroupState (p : Part) : Reply :=
  Reply.done
    (p.posture.groups.g0.stateBytes ++ p.posture.groups.g1.stateBytes ++ p.posture.groups.g2.stateBytes
      ++ p.posture.groups.g3.stateBytes
      ++ [byte (GroupId.code p.posture.wanted), byte p.posture.active.code, byte p.posture.level.code])

/-! ## Season, declaration and local raise -/

/-- SET SEASON (R108). -/
def askSetSeason (k : LinkId) (season : Byte) (p : Part) : Part × Reply :=
  match seasonOf season.toNat with
  | none => (p, Reply.bare .outOfRange)
  | some s =>
    if s = p.posture.season then (p, Reply.done [])
    else
      (recompute (queueWrite (.season s) (some k) { p with posture := { p.posture with season := s } }),
        ⟨.done, [], true⟩)

/-- A declaration that stands for this many hours (R109). -/
def declare (l : Level) (hours : Nat) (p : Part) : Part × Reply :=
  (recompute
      { p with posture := { p.posture with declared := l, declaredExpiry := some (p.uptime + 3600 * hours) } },
    Reply.done [byte hours])

/-- DECLARE FIRE LEVEL (R109). -/
def askDeclare (level hours : Byte) (p : Part) : Part × Reply :=
  match levelOf level.toNat with
  | none => (p, Reply.bare .outOfRange)
  | some .none =>
    (recompute { p with posture := { p.posture with declared := .none, declaredExpiry := none } }, Reply.done [byte 0])
  | some l => if hours.toNat = 0 then (p, Reply.bare .outOfRange) else declare l (min hours.toNat 72) p

/-- RAISE LOCAL LEVEL (R111). -/
def askRaiseLocal (level : Byte) (p : Part) : Part × Reply :=
  match levelOf level.toNat with
  | none => (p, Reply.bare .outOfRange)
  | some .none => (p, Reply.bare .outOfRange)
  | some l =>
    if p.posture.localRaise.rank < l.rank then
      (recompute { p with posture := { p.posture with localRaise := l } }, Reply.done [byte 0])
    else (p, Reply.done [byte 1])

/-- CLEAR LOCAL LEVEL (R111). -/
def askClearLocal (p : Part) : Part × Reply :=
  if p.posture.localRaise = .none then (p, Reply.done [byte 1])
  else (recompute { p with posture := { p.posture with localRaise := .none } }, Reply.done [byte 2])

end Sys2Proof.Machine
end

