-- ==== Sys2Proof/Machine/Blocks.lean ====
section
/-! DEFINITION. Blocks (05_reclose_blocks.md): placing, refreshing, removing and reading the masters' entries. The part's own
placements and removals, which the Hunt also takes part in, stand in Hunt.lean. -/

namespace Sys2Proof.Machine

/-! ## The list -/

/-- The master-owned count (R80). -/
def masterCount (l : List BlockEntry) : Nat := (l.filter fun e => e.owner ≠ .part).length

/-- The HOT_LINE count (R80). -/
def hotLineCount (l : List BlockEntry) : Nat := (l.filter fun e => e.kind = .hotLine).length

/-- Whether an entry has this kind, owner and reason, which name it (R80). -/
def BlockEntry.named (e : BlockEntry) (kind : BlockKind) (owner : Owner) (reason : Byte) : Bool :=
  e.kind = kind && e.owner = owner && e.reason = reason

/-- The entry of this kind, owner and reason. -/
def findEntry (l : List BlockEntry) (kind : BlockKind) (owner : Owner) (reason : Byte) : Option BlockEntry :=
  l.find? (·.named kind owner reason)

/-- The lowest-numbered stored slot that no entry holds (R92). -/
def freeSlot (l : List BlockEntry) : Option SlotId := allSlots.find? fun n => l.all fun e => e.slot ≠ some n

/-- What a slot holds of an entry (R92). -/
def BlockEntry.stored (e : BlockEntry) : SlotEntry := ⟨e.kind, e.owner, e.reason⟩

/-- A queued write of a slot, if there is a slot (R84 item 6, R87 item 3). -/
def writeSlot (n : Option SlotId) (x : Option SlotEntry) (k : Option LinkId) (p : Part) : Part :=
  match n with
  | some n => queueWrite (.slot n x) k p
  | none => p

/-- The expiry applied, from the request's minutes: clamped to 1440, 0 for none (R82). -/
def appliedExpiry (minutes : Nat) : Option Nat := if minutes = 0 then none else some (min minutes longestExpiry)

/-- The moment of an expiry set now: the uptime plus 60 times the minutes (R79). -/
def Part.expiryMoment (p : Part) (expiry : Option Nat) : Option Nat := expiry.map fun minutes => p.uptime + 60 * minutes

/-! ## Hot line -/

/-- The close order's placer takes RELEASED (R51). -/
def releasedTaken (by' : Option Placer) (p : Part) : Part :=
  match by' with
  | some .sequencer => seqReleased p
  | some .hunt => huntReleased p
  | none => p

/-- A HOT_LINE placement handed to Mechanism (R51). -/
def hotLineRelease (p : Part) : Part :=
  if p.mech.order = .close then releasedTaken p.mech.placer (closeEnded (endOrder p)) else p

/-- A HOT_LINE placement handed to the Hunt (R84 item 3, R145). -/
def huntHotLine (p : Part) : Part := abandonIfRunning .hotLine none emptyCall p

/-! ## Placing -/

/-- Whether a master may place a kind (R81). -/
def mayPlace (m : Master) : BlockKind → Bool
  | .hotLine => m ≠ .bay
  | .operator => m ≠ .crew
  | _ => false

/-- What the placement of a master's entry hands on before the entry joins the list (R84, items 1 to 3). -/
def handPlacement (kind : BlockKind) (p : Part) : Part :=
  match kind with
  | .hotLine => huntHotLine (seqBlockPlaced .hotLine (hotLineRelease p))
  | _ => seqBlockPlaced kind p

/-- The entry that joins the list (R84, items 4 and 6; R92). -/
def Part.newEntry (p : Part) (kind : BlockKind) (m : Master) (reason : Byte) (expiry : Option Nat) : BlockEntry where
  kind := kind
  owner := .master m
  reason := reason
  placedAt := p.uptime
  expiry := expiry
  moment := p.expiryMoment expiry
  slot := if expiry.isSome then none else freeSlot p.entries

/-- An entry joins the end of the list, and Posture is told of the first HOT_LINE (R84, items 4 and 5). -/
def joinEntry (e : BlockEntry) (p : Part) : Part :=
  let q : Part := { p with entries := p.entries ++ [e] }
  if e.kind = .hotLine && hotLineCount p.entries = 0 then tellHotLine true q else q

/-- A new entry placed, items 4 to 7 (R84). -/
def joinAndStore (k : LinkId) (e : BlockEntry) (p : Part) : Part :=
  raise .blocks (writeSlot e.slot (some e.stored) (some k) (joinEntry e p))

/-- A new entry placed (R84). -/
def placeNew (k : LinkId) (m : Master) (kind : BlockKind) (reason : Byte) (expiry : Option Nat) (p : Part) : Part :=
  let q := handPlacement kind p
  joinAndStore k (q.newEntry kind m reason expiry) q

/-- The DONE body of PLACE BLOCK: the result and the expiry as applied (R191). -/
def placeBody (result : Nat) (expiry : Option Nat) : List Byte := byte result :: bytes2 (expiry.getD 0)

/-- The slot of an OPERATOR entry after a refresh to this expiry (R83). -/
def refreshedSlot (l : List BlockEntry) (e : BlockEntry) (expiry : Option Nat) : Option SlotId :=
  match expiry, e.expiry with
  | some _, _ => none
  | none, some _ => freeSlot l
  | none, none => e.slot

/-- An OPERATOR entry after a refresh (R83). -/
def Part.refreshedEntry (p : Part) (e : BlockEntry) (expiry : Option Nat) : BlockEntry :=
  { e with expiry := expiry, moment := p.expiryMoment expiry, slot := refreshedSlot p.entries e expiry }

/-- The write of a refresh: the slot released is written EMPTY, the slot taken with the entry (R83). -/
def refreshWrite (k : LinkId) (e : BlockEntry) (expiry : Option Nat) (taken : Option SlotId) (p : Part) : Part :=
  match expiry, e.expiry with
  | some _, none => writeSlot e.slot none (some k) p
  | none, some _ => writeSlot taken (some e.stored) (some k) p
  | _, _ => p

/-- An OPERATOR entry refreshed (R83, R90). An expiry of the same minutes is timed afresh, and raises nothing (DEDUCED, log
entry 15). -/
def refreshOperator (k : LinkId) (e : BlockEntry) (expiry : Option Nat) (p : Part) : Part :=
  let fresh := p.refreshedEntry e expiry
  let q :=
    refreshWrite k e expiry fresh.slot
      { p with entries := p.entries.map fun x => if x.named e.kind e.owner e.reason then fresh else x }
  if expiry = e.expiry then q else raise .blocks q

/-- A refresh (R83): a HOT_LINE changes nothing. -/
def refresh (k : LinkId) (e : BlockEntry) (expiry : Option Nat) (p : Part) : Part × Reply :=
  match e.kind with
  | .operator =>
    (refreshOperator k e expiry p, ⟨.done, placeBody 1 expiry, expiry.isSome ≠ e.expiry.isSome⟩)
  | _ => (p, Reply.done (placeBody 1 none))

/-- PLACE BLOCK of a kind that the master may place (R82). -/
def placeKind (k : LinkId) (m : Master) (kind : BlockKind) (reason : Byte) (minutes : Nat) (p : Part) : Part × Reply :=
  if kind = .hotLine && minutes ≠ 0 then (p, Reply.bare .outOfRange)
  else
    match findEntry p.entries kind (.master m) reason with
    | some e => refresh k e (appliedExpiry minutes) p
    | none =>
      if masterPlaces ≤ masterCount p.entries then (p, Reply.bare .listFull)
      else
        (placeNew k m kind reason (appliedExpiry minutes) p,
          ⟨.done, placeBody 0 (appliedExpiry minutes), (appliedExpiry minutes).isNone⟩)

/-- PLACE BLOCK (R82). -/
def askPlaceBlock (k : LinkId) (m : Master) (kind reason : Byte) (expiry : Half) (p : Part) : Part × Reply :=
  match blockKindOf kind.toNat with
  | some b => if mayPlace m b then placeKind k m b reason expiry.toNat p else (p, Reply.bare .noRight)
  | none => (p, Reply.bare .noRight)

/-! ## Removing -/

/-- The entry of a name leaves the list, and Posture is told of the last HOT_LINE (R87, items 1 and 2). -/
def leaveEntry (e : BlockEntry) (p : Part) : Part :=
  let q : Part := { p with entries := p.entries.filter fun x => !x.named e.kind e.owner e.reason }
  if e.kind = .hotLine && hotLineCount p.entries = 1 then tellHotLine false q else q

/-- A removal of a master's entry (R87). -/
def removeEntry (e : BlockEntry) (k : Option LinkId) (p : Part) : Part :=
  raise .blocks (writeSlot e.slot none k (leaveEntry e p))

/-- Whether the operands of REMOVE BLOCK pass the rights checks (R86, items 1 to 3). -/
def mayRemove (m : Master) (kind : BlockKind) (owner : Option Owner) : Bool :=
  match kind with
  | .hotLine => owner = some (.master m)
  | .operator => m ≠ .crew
  | _ => false

/-- REMOVE BLOCK of a kind that the master may remove (R86). -/
def removeKind (k : LinkId) (kind : BlockKind) (owner : Option Owner) (reason : Byte) (p : Part) : Part × Reply :=
  match owner with
  | none => (p, Reply.bare .notFound)
  | some o =>
    match findEntry p.entries kind o reason with
    | none => (p, Reply.bare .notFound)
    | some e => (removeEntry e (some k) p, ⟨.done, [], e.slot.isSome⟩)

/-- REMOVE BLOCK (R86). -/
def askRemoveBlock (k : LinkId) (m : Master) (kind owner reason : Byte) (p : Part) : Part × Reply :=
  match blockKindOf kind.toNat with
  | some b =>
    if mayRemove m b (ownerOf owner.toNat) then removeKind k b (ownerOf owner.toNat) reason p
    else (p, Reply.bare .noRight)
  | none => (p, Reply.bare .noRight)

/-- The expiry of an OPERATOR entry taken (R88), if there is one of this owner and reason with an expiry.
(DESIGN CHOICE, log entry 25.) -/
def blockExpired (m : Master) (reason : Byte) (p : Part) : Part :=
  match findEntry p.entries .operator (.master m) reason with
  | none => p
  | some e =>
    match e.moment with
    | none => p
    | some moment => removeEntry e none (p.reach (moment * 1000))

/-! ## Reading -/

/-- An entry as READ BLOCKS shows it (R189). -/
def Part.entryBytes (p : Part) (e : BlockEntry) : List Byte :=
  [byte e.kind.code, byte e.owner.code, e.reason] ++ bytes4 e.placedAt ++ bytes2 (e.expiry.getD 0)
    ++ bytes4OrNone (e.moment.map (· - p.uptime)) ++ [byte (flag e.slot.isSome)]

/-- READ BLOCKS (R91, R189). -/
def askReadBlocks (p : Part) : Reply :=
  Reply.done
    ([byte p.entries.length, byte (masterCount p.entries), byte (hotLineCount p.entries)]
      ++ p.entries.flatMap p.entryBytes)

end Sys2Proof.Machine
end

