-- ==== Sys2Proof/Machine/ElementSteps.lean ====
section
/-! DEFINITION. Elements on a frame step (02_protection_elements_and_time_current_arithmetic.md): the comparisons and counts of
a running step, the episode, the trip decision and its routing, and the windows. -/

namespace Sys2Proof.Machine

/-! ## The elements of one step, as functions of the settings and the channels -/

/-- The effective phase pickup (R21). -/
def effectivePickup (s : Settings) (coldLoadRuns : Bool) : Nat :=
  if coldLoadRuns then s.phasePickup.getD 0 * s.coldLoadMultiplier.getD 0 / 100 else s.phasePickup.getD 0

/-- The pickups that the four inverse-time elements compare against (R22). -/
def pickups (s : Settings) (coldLoadRuns : Bool) : Quad Nat :=
  let pe := effectivePickup s coldLoadRuns
  ⟨pe, pe, pe, s.earthPickup.getD 0⟩

/-- The curve and time multiplier of each inverse-time element (R23). -/
def curves (s : Settings) : Quad (Nat × Nat) :=
  let phase := (s.phaseCurve.getD 0, s.phaseTms.getD 0)
  ⟨phase, phase, phase, (s.earthCurve.getD 0, s.earthTms.getD 0)⟩

/-- The accrual of an inverse-time element (R23). -/
def accrual (curve tms m64 : Nat) : Nat := 1000000000 / (curveTime curve (bandOf m64) * tms)

/-- An inverse-time accumulator after a running step in NORMAL mode (R23, R24). -/
def stepAcc (c : Channel) (pickup : Nat) (curve : Nat × Nat) (acc : Nat) : Nat :=
  match c.multiple pickup with
  | none => acc
  | some m64 => if 64 ≤ m64 then min (acc + accrual curve.1 curve.2 m64) tripFull else acc - decayStep

/-- The four accumulators after a running step in NORMAL mode (R23, R24). -/
def stepAccs (s : Settings) (coldLoadRuns : Bool) (ch : Quad Channel) (acc : Quad Nat) : Quad Nat :=
  let p := pickups s coldLoadRuns
  let v := curves s
  ⟨stepAcc ch.a p.a v.a acc.a, stepAcc ch.b p.b v.b acc.b, stepAcc ch.c p.c v.c acc.c, stepAcc ch.n p.n v.n acc.n⟩

/-- The inverse-time elements picked up on a step (R22). -/
def pickedLanes (s : Settings) (coldLoadRuns : Bool) (ch : Quad Channel) : Quad Bool :=
  Quad.zip (fun c p => c.pickedUp p) ch (pickups s coldLoadRuns)

/-- The inverse-time elements that trip, from those picked up and the accumulators after the step (R23). -/
def fullLanes (picked : Quad Bool) (acc : Quad Nat) : Quad Bool := Quad.zip (fun b a => b && a = tripFull) picked acc

/-- A high-set count after a running step (R25). -/
def stepHighset (s : Settings) (c : Channel) (count : Nat) : Nat :=
  if s.highsetLevel.getD 0 = 0 then 0
  else if !c.available then count
  else if c.atLeast (s.highsetLevel.getD 0) then min (count + 1) 50
  else 0

/-- The three high-set counts after a running step (R25). -/
def stepHighsets (s : Settings) (ch : Quad Channel) (count : Phases Nat) : Phases Nat :=
  ⟨stepHighset s ch.a count.a, stepHighset s ch.b count.b, stepHighset s ch.c count.c⟩

/-- The target of the high-set elements (R25). -/
def highsetTarget (s : Settings) : Nat := max 1 (s.highsetDelay.getD 0 / 10)

/-- Whether a high-set element trips, with its count after the step (R25). -/
def highsetTrips (s : Settings) (c : Channel) (count : Nat) : Bool :=
  s.highsetLevel.getD 0 ≠ 0 && c.atLeast (s.highsetLevel.getD 0) && highsetTarget s ≤ count

/-- The high-set lanes of a step (R25, R36). -/
def highsetLanes (s : Settings) (ch : Quad Channel) (count : Phases Nat) : Phases Bool :=
  ⟨highsetTrips s ch.a count.a, highsetTrips s ch.b count.b, highsetTrips s ch.c count.c⟩

/-- The drop-off of the SEF element (R26). -/
def sefDropOff (s : Settings) : Nat := s.sefPickup.getD 0 * 9 / 10

/-- The target of the SEF element (R26). -/
def sefTarget (s : Settings) : Nat := s.sefDelay.getD 0 / 10

/-- The SEF count after an unrestrained running step in NORMAL mode (R26). -/
def stepSef (s : Settings) (n : Channel) (count : Nat) : Nat :=
  if !n.available then count
  else if n.atLeast (s.sefPickup.getD 0) then min (count + 1) 6000
  else if n.atLeast (sefDropOff s) then count
  else 0

/-- Whether the SEF element trips on an unrestrained step, with its count after the step (R26). -/
def sefTrips (s : Settings) (n : Channel) (count : Nat) : Bool := n.atLeast (sefDropOff s) && sefTarget s ≤ count

/-- Whether the SEF element is restrained on a step (R27). -/
def restrained (picked : Quad Bool) (coldLoadRuns : Bool) : Bool := anyPhaseLane picked || coldLoadRuns

/-- The lanes at or above their pickups, CLIPPED included: those of the mask (R30) and of the SOTF comparison (R28). -/
def reachedLanes (s : Settings) (coldLoadRuns : Bool) (ch : Quad Channel) : Quad Bool :=
  Quad.zip (fun c p => c.atLeast p) ch (pickups s coldLoadRuns)

/-! ## The episode -/

/-- The peak of a channel after a step of the episode (R31). -/
def stepPeak (c : Channel) (old : Option Peak) : Option Peak :=
  match c.magnitude, old with
  | none, _ => old
  | some v, none => some ⟨v, c.isClipped⟩
  | some v, some k => some ⟨max k.magnitude v, k.clipped || c.isClipped⟩

/-- An episode that starts on this step (R31). -/
def startEpisode (uptime : Nat) (ch : Quad Channel) : Episode := ⟨uptime, 1, 0, Quad.map (fun c => stepPeak c none) ch⟩

/-- An open episode after a later running step (R31); it ends when its quiet count reaches 50 (R32). -/
def Episode.step (e : Episode) (quiet : Bool) (ch : Quad Channel) : Option Episode :=
  let e' : Episode :=
    ⟨e.start, min (e.steps + 1) 65535, if quiet then e.quiet + 1 else 0, Quad.zip stepPeak ch e.peaks⟩
  if 50 ≤ e'.quiet then none else some e'

/-- Whether the mask of the latest running step is empty (R30). -/
def Elements.maskEmpty (e : Elements) : Bool := !(anyLane e.mask || e.sefPicked)

/-- The mask, the SEF-picked bit and the episode after a running step (R30, R31). -/
def Elements.record (e : Elements) (mask : Quad Bool) (sefPicked : Bool) (uptime : Nat) (ch : Quad Channel) : Elements :=
  let quiet := !(anyLane mask || sefPicked)
  { e with
    mask := mask
    sefPicked := sefPicked
    episode :=
      match e.episode with
      | some ep => ep.step quiet ch
      | none => if e.maskEmpty && !quiet then some (startEpisode uptime ch) else none }

/-! ## The running step -/

/-- A step's elements before the episode: the state they leave and the decision they make (R35, items 3, 4 and 6). -/
structure StepOutcome where
  acc : Quad Nat
  highset : Phases Nat
  sef : Nat
  decision : Decision
deriving DecidableEq, Repr

/-- The causes of a step (R36). -/
def stepCauses (full : Quad Bool) (high : Phases Bool) (sef : Bool) (sotf : Quad Bool) : Causes :=
  { phA := full.a
    phB := full.b
    phC := full.c
    highset := anyPhase high
    earth := full.n
    sef := sef
    sotf := anyLane sotf }

/-- The elements of a running step in NORMAL mode (R35). -/
def normalStep (s : Settings) (e : Elements) (ch : Quad Channel) : StepOutcome :=
  let cold := e.coldLoad.isSome
  let acc := stepAccs s cold ch e.acc
  let high := stepHighsets s ch e.highset
  let picked := pickedLanes s cold ch
  let held := restrained picked cold
  let sef := if held then e.sef else stepSef s ch.n e.sef
  let lanes := highsetLanes s ch high
  let sotf := if e.sotf.isSome then reachedLanes s cold ch else noLanes
  ⟨acc, high, sef, ⟨stepCauses (fullLanes picked acc) lanes (!held && sefTrips s ch.n sef) sotf, lanes, sotf⟩⟩

/-- The elements of a running step in HUNT_TEST mode (R34). -/
def huntTestStep (s : Settings) (e : Elements) (ch : Quad Channel) : StepOutcome :=
  let cold := e.coldLoad.isSome
  let high := stepHighsets s ch e.highset
  let lanes := highsetLanes s ch high
  let sotf := reachedLanes s cold ch
  ⟨e.acc, high, e.sef, ⟨stepCauses noLanes lanes false sotf, lanes, sotf⟩⟩

/-- The elements of a running step, by the mode (R35). -/
def stepOutcome (s : Settings) (e : Elements) (ch : Quad Channel) : StepOutcome :=
  match e.mode with
  | .normal => normalStep s e ch
  | .huntTest => huntTestStep s e ch

/-- A running window after one running step (R28, R29). -/
def countDown : Option Nat → Option Nat
  | none => none
  | some n => if n ≤ 1 then none else some (n - 1)

/-- The running windows count down, in NORMAL mode (R35, item 7). -/
def countWindows (mode : Mode) (p : Part) : Part :=
  match mode with
  | .normal =>
    { p with
      elements := { p.elements with sotf := countDown p.elements.sotf, coldLoad := countDown p.elements.coldLoad } }
  | .huntTest => p

/-- A trip decision routed (R37). -/
def routeDecision (mode : Mode) (d : Decision) (p : Part) : Part :=
  if !d.causes.any || p.mech.order = .trip then p
  else
    match mode with
    | .normal => seqDecision d p
    | .huntTest => huntDecision d p

/-- The step handed to the Hunt in HUNT_TEST mode (R34, item 4), before that step's decision (DESIGN CHOICE, log entry 12). -/
def handStep (mode : Mode) (residual : Channel) (p : Part) : Part :=
  match mode with
  | .normal => p
  | .huntTest => huntStep residual p

/-- What a running step leaves in Elements and in the ABSENT_SEEN flags, before the decision is routed (R35, R8). -/
def elementsRun (p : Part) : Part :=
  let o := stepOutcome p.settings p.elements p.intake.channels
  let ch := p.intake.channels
  { p with
    intake := { p.intake with absentSeen := Quad.zip (fun c b => b || !c.available) ch p.intake.absentSeen }
    elements :=
      { p.elements with acc := o.acc, highset := o.highset, sef := o.sef }.record
        (reachedLanes p.settings p.elements.coldLoad.isSome ch) (ch.n.atLeast (p.settings.sefPickup.getD 0)) p.uptime
        ch }

/-- A running step taken whole (R35). -/
def runningStep (p : Part) : Part :=
  countWindows p.elements.mode
    (routeDecision p.elements.mode (stepOutcome p.settings p.elements p.intake.channels).decision
      (handStep p.elements.mode p.intake.channels.n (elementsRun p)))

/-- Whether a step taken now is a running step (R17). -/
def Part.runs (p : Part) : Bool := p.position = .closed || (p.position = .travel && p.mech.order = .close)

/-- The open count after a frame step (R20). -/
def countOpen (p : Part) : Part :=
  if p.position = .closed then p
  else { p with elements := { p.elements with openCount := min (p.elements.openCount + 1) openCountFull } }

/-- A frame step handed to Elements (R17, R20). -/
def elementsStep (p : Part) : Part :=
  let q := countOpen p
  if q.runs then runningStep q else q

/-! ## Ends that the counts bring, as events of their own (DEDUCED, log entry 3) -/

/-- The SOTF window ends (R28). -/
def sotfEnded (p : Part) : Part := { p with elements := { p.elements with sotf := none } }

/-- The cold-load window ends (R29). -/
def coldLoadEnded (p : Part) : Part := { p with elements := { p.elements with coldLoad := none } }

/-- The episode ends quietly (R32). -/
def quietEnded (p : Part) : Part := { p with elements := { p.elements with episode := none } }

/-- The window sum at a bare end of the window: free, within the range of a window sum (DESIGN CHOICE, log entry 4). -/
def Part.unseenSum (p : Part) : Nat :=
  min (Config.unseenWindowSum p.clock p.hunt.windowCount p.hunt.windowSum) 1310680

/-- The hunt's test window ends (R139). The row gives no residuals, so of the window steps passed over the sum is free, and so
is whether one was UNAVAILABLE; a step seen to be UNAVAILABLE stays so, and the twenty steps count as taken (DESIGN CHOICE, log
entry 4). -/
def huntWindowEnded (p : Part) : Part :=
  if p.settling then
    windowEnded p.unseenSum
      { p with
        hunt :=
          { p.hunt with
            settleCount := 5
            windowCount := 20
            windowSum := p.unseenSum
            windowUnavailable :=
              p.hunt.windowUnavailable || Config.unseenUnavailable p.clock p.hunt.windowCount } }
  else p

end Sys2Proof.Machine
end

