-- ==== Sys2Proof/Machine/Intake.lean ====
section
/-! DEFINITION. Measurement Intake (01_measurement_intake.md): frames and their checks, missing-frame steps, source-live, the
loss counter and the measurement state. -/

namespace Sys2Proof.Machine

/-! ## Loss -/

/-- Whether the active settings are ones under which Intake asks for a trip (R13). -/
def Active.asksTrip : Active → Bool
  | .group .g0 => false
  | .group .g1 => false
  | .group .g2 => true
  | .group .g3 => true
  | .fallback => true

/-- The trip a measurement loss calls the Hunt for (R143). -/
def measureLossCall : TripCall := ⟨measureLossCause, none, noPhases, noLanes⟩

/-- Intake asks the Sequencer for a trip where R13 requires one. -/
def askLossTrip (p : Part) : Part :=
  if p.posture.active.asksTrip && p.position = .closed then seqMeasureLoss p else p

/-- Entry to LOST (R12). -/
def enterLost (p : Part) : Part :=
  abandonIfRunning .measureLost none measureLossCall
    (askLossTrip (raise .measureLoss (placeMeasure { p with intake := { p.intake with state := .lost } })))

/-- Return to GOOD (R14). -/
def enterGood (p : Part) : Part :=
  raise .measureLoss (removePart .measure { p with intake := { p.intake with state := .good } })

/-- Counts added to the loss counter (R11, R12). -/
def addLoss (n : Nat) (p : Part) : Part :=
  let q : Part := { p with intake := { p.intake with loss := min (p.intake.loss + n) counterFull } }
  if q.intake.loss = counterFull && q.intake.state = .good then enterLost q else q

/-- One count taken off the loss counter (R11, R14). -/
def dropLoss (p : Part) : Part :=
  let q : Part := { p with intake := { p.intake with loss := p.intake.loss - 1 } }
  if q.intake.loss = 0 && q.intake.state = .lost then enterGood q else q

/-! ## Source-live -/

/-- The source-live indication and its hold count replaced; a change is handed on (R10). -/
def setSource (live : Bool) (hold : Nat) (p : Part) : Part :=
  let q : Part := { p with intake := { p.intake with sourceLive := live, liveHold := hold } }
  if live = p.intake.sourceLive then q else huntConditionsChanged (seqConditionsChanged q)

/-- Source-live on a missing-frame step (R10). -/
def missSource (p : Part) : Part :=
  if p.intake.liveHold < 2 then setSource p.intake.sourceLive (p.intake.liveHold + 1) p else setSource false 2 p

/-! ## Frame steps -/

/-- Intake's own state after the channels of a step: classes, held values and CLIPPED_SEEN (R5, R6, R8). -/
def stepChannels (kind : StepKind) (ch : Quad Channel) (p : Part) : Part :=
  { p with
    intake :=
      { p.intake with
        lastKind := some kind
        channels := ch
        clippedSeen := Quad.zip (fun c b => b || c.isClipped) ch p.intake.clippedSeen } }

/-- The count of a frame step of kind FRAME, by its channels (R11). -/
def countFrame (p : Part) : Part :=
  if anyLane (Quad.map Channel.isAbsent p.intake.channels) then addLoss 1 p
  else if anyLane (Quad.map Channel.isClipped p.intake.channels) then p
  else dropLoss p

/-- A frame step of kind FRAME (R5 to R8, R11). -/
def frameStep (r : Quad Reading) (p : Part) : Part :=
  elementsStep (countFrame (stepChannels .frame (Quad.zip (fun c x => c.step (some x)) p.intake.channels r) p))

/-- A frame step of kind MISSING (R4, R5). -/
def missingStep (p : Part) : Part :=
  elementsStep (stepChannels .missing (Quad.map (fun c => c.step none) p.intake.channels) p)

/-! ## Frames -/

/-- A reading from two bytes, least significant first, and its valid flag (R186, R187). -/
def readingOf (b0 b1 : Byte) (valid : Bool) : Reading := ⟨b0.toNat + 256 * b1.toNat, valid⟩

/-- The fields of a ten-byte frame (R187); none for any other length (R1). -/
def readFrame : List Byte → Option FrameRecord
  | [b0, b1, b2, b3, b4, b5, b6, b7, b8, b9] =>
    some
      ⟨b0, b1.getLsbD 0,
        ⟨readingOf b2 b3 (b1.getLsbD 1), readingOf b4 b5 (b1.getLsbD 2), readingOf b6 b7 (b1.getLsbD 3),
          readingOf b8 b9 (b1.getLsbD 4)⟩⟩
  | _ => none

/-- The g of a frame against the reference, 0 with none (R2). -/
def frameGap (reference : Option Byte) (seq : Byte) : Nat :=
  match reference with
  | none => 0
  | some r => (seq - r - 1).toNat

/-- An accepted frame (R3). -/
def acceptFrame (g : Nat) (f : FrameRecord) (p : Part) : Part :=
  let q := addLoss (min g 32) p
  frameStep f.readings
    (setSource f.live 0
      { q with intake := { q.intake with reference := some f.seq, latest := some f, frameDue := q.timer 15 } })

/-- A ten-byte frame checked against the reference (R2). -/
def checkFrame (f : FrameRecord) (p : Part) : Part :=
  let g := frameGap p.intake.reference f.seq
  if g = 255 then p else if 128 ≤ g then addLoss 1 p else acceptFrame g f p

/-- A measurement frame arrives (R1, R16): before start-up is complete its bytes are ignored.
(DEDUCED, log entry 26.) -/
def takeFrame (bytes : List Byte) (p : Part) : Part :=
  if p.started then
    match readFrame bytes with
    | some f => checkFrame f p
    | none => addLoss 1 p
  else p

/-- A missing-frame step (R4), if the frame-due timer runs. -/
def frameDueEnded (p : Part) : Part :=
  let q := addLoss 1 { p with intake := { p.intake with reference := p.intake.reference.map (· + 1) } }
  let r := missingStep (missSource q)
  { r with intake := { r.intake with frameDue := r.timer 10 } }

/-! ## Requests -/

/-- CLEAR QUALITY (R9). -/
def askClearQuality (p : Part) : Part × Reply :=
  ({ p with intake := { p.intake with absentSeen := noLanes, clippedSeen := noLanes } }, Reply.done [])

/-- The quality flags in a byte (R186). -/
def Intake.quality (i : Intake) : Nat := laneCode i.absentSeen + 16 * laneCode i.clippedSeen

/-- Seven bytes of READ MEASUREMENTS for one channel (R188). -/
def Channel.bytes (c : Channel) : List Byte :=
  [byteOrNone (c.cls.map ChannelClass.code), byte (flag (!c.available)), byte c.hold] ++ bytes2OrNone c.value
    ++ bytes2OrNone c.held

/-- READ MEASUREMENTS (R15, R188). The source-live indication is an enumerated value, LIVE 0 and DEAD 1 by the order of
its table (R186, DEDUCED, log entry 18). -/
def askReadMeasurements (p : Part) : Reply :=
  Reply.done
    (byteOrNone (p.intake.lastKind.map StepKind.code) :: bytes2OrNone (p.intake.reference.map BitVec.toNat)
      ++ p.intake.channels.a.bytes ++ p.intake.channels.b.bytes ++ p.intake.channels.c.bytes ++ p.intake.channels.n.bytes
      ++ [byte (flag (!p.intake.sourceLive)), byte p.intake.liveHold, byte p.intake.quality, byte p.intake.loss,
          byte p.intake.state.code])

end Sys2Proof.Machine
end

