-- ==== Sys2Proof/Machine/Events.lean ====
section
/-! DEFINITION. The events at the breaker mechanism (03_breaker_mechanism_interface.md): contact changes and what they
complete or announce, the mechanism's timers, energy-ready; and the requests TRIP, CLOSE and RESET MECHANISM. -/

namespace Sys2Proof.Machine

/-! ## Contacts read at start-up -/

/-- The position read is a settled one (R54). -/
def settledOf (m : Mechanism) : Option Position :=
  match m.position with
  | .opened => some .opened
  | .closed => some .closed
  | _ => none

/-- The Sequencer's state after cold start, from the position (R78). -/
def startSeq (q : Sequencer) (position : Position) : Sequencer :=
  if position = .closed then { q with state := .closed, lockoutReason := none }
  else { q with state := .lockout, lockoutReason := some .start }

/-- The contacts read in start-up, with what start-up forms from the position (R40, R54, R78). A change before start-up is
complete is read in the same way (DEDUCED, log entry 10). -/
def readContacts (openMade closedMade : Bool) (p : Part) : Part :=
  let m : Mechanism := { p.mech with openMade := openMade, closedMade := closedMade }
  { p with
    mech := { m with settled := settledOf m }
    seq := startSeq p.seq m.position
    elements := { p.elements with openCount := if m.position = .closed then 0 else openCountFull } }

/-! ## Positions -/

/-- The trip order's placer takes OPENED (R48). -/
def openedTaken (by' : Option Placer) (p : Part) : Part :=
  match by' with
  | some .sequencer => seqOpened p
  | some .hunt => huntOpened p
  | none => p

/-- The close order's placer takes CLOSED (R50). -/
def closedTaken (by' : Option Placer) (p : Part) : Part :=
  match by' with
  | some .sequencer => seqCloseDone p
  | some .hunt => huntCloseDone p
  | none => p

/-- The position settles (R41, R42 item 2). -/
def settle (x : Position) (p : Part) : Part := { p with mech := { p.mech with settled := some x } }

/-- The Hunt is told of an external operation (R52, R145). -/
def huntExternal (p : Part) : Part := abandonIfRunning .external none emptyCall p

/-- OPEN announced (R42 item 3), as reached by the trip order that has just ended or as an external open (R52). -/
def announceOpen (byOrder : Bool) (p : Part) : Part :=
  let q := elementsOpened (settle .opened p)
  if byOrder then q else huntExternal (seqExternalOpen q)

/-- CLOSED announced (R42 item 3), as reached by the close order that has just ended or as an external close (R52). -/
def announceClosed (byOrder : Bool) (p : Part) : Part :=
  let q := elementsClosed byOrder (settle .closed p)
  if byOrder then q else huntExternal (seqExternalClose q)

/-- A trip order in progress is completed by OPEN (R48).
(DEDUCED, log entry 28.) -/
def completeTrip (p : Part) : Part :=
  if p.mech.order = .trip then openedTaken p.mech.placer (completeRecord .opened (endOrder p)) else p

/-- The position has become OPEN (R42, R48).
(DEDUCED, log entry 28.) -/
def becomesOpen (p : Part) : Part :=
  if p.mech.settled = some .opened then completeTrip p
  else announceOpen (p.mech.order = .trip) (completeTrip p)

/-- A close order in progress is completed by CLOSED (R50). -/
def completeClose (p : Part) : Part :=
  if p.mech.order = .close then closedTaken p.mech.placer (endOrder p) else p

/-- The position has become CLOSED (R42, R50). -/
def becomesClosed (p : Part) : Part :=
  if p.mech.settled = some .closed then p
  else announceClosed (p.mech.order = .close) (completeClose p)

/-- The contacts changed, with the travel and discrepancy timers that the new position starts or stops (R41, R43). -/
def moveContacts (openMade closedMade : Bool) (p : Part) : Part :=
  let m : Mechanism := { p.mech with openMade := openMade, closedMade := closedMade }
  { p with
    mech :=
      { m with
        travelTimer := if m.position = .travel && m.order = .none then p.timer 300 else none
        discrepancyTimer := if m.position = .discrepant then p.timer 300 else none } }

/-- A contact change taken (R41 to R43). -/
def contactsChanged (openMade closedMade : Bool) (p : Part) : Part :=
  if p.mech.openMade = openMade && p.mech.closedMade = closedMade then p
  else if !p.started then readContacts openMade closedMade p
  else
    let q := moveContacts openMade closedMade p
    match q.position with
    | .opened => becomesOpen q
    | .closed => becomesClosed q
    | _ => q

/-! ## Failures -/

/-- A position failure (R44). -/
def positionFailure (p : Part) : Part := seqPositionFailure (raise .mechanismFail (placeMechanism p))

/-- The travel timer's expiry taken (R43). -/
def travelEnded (p : Part) : Part := positionFailure { p with mech := { p.mech with travelTimer := none } }

/-- The discrepancy timer's expiry taken (R43). -/
def discrepancyEnded (p : Part) : Part := positionFailure { p with mech := { p.mech with discrepancyTimer := none } }

/-- The trip order's placer takes TRIP_FAIL (R48, R59). A trip of the Hunt's that fails reaches it through the MECHANISM
placement (R147). -/
def tripFailTaken (by' : Option Placer) (p : Part) : Part :=
  match by' with
  | some .sequencer => seqTripFailed p
  | _ => p

/-- The trip order's maximum time is over (R48). -/
def tripTimedOut (p : Part) : Part :=
  if p.mech.order = .trip then
    tripFailTaken p.mech.placer (completeRecord .tripFail (raise .mechanismFail (placeMechanism (endOrder p))))
  else p

/-- The close order's placer takes CLOSE_FAIL (R50, R64). A close of the Hunt's that fails reaches it through the MECHANISM
placement (R138, R145). -/
def closeFailTaken (by' : Option Placer) (p : Part) : Part :=
  match by' with
  | some .sequencer => seqCloseFailed p
  | _ => p

/-- The close order's maximum time is over (R50). -/
def closeTimedOut (p : Part) : Part :=
  if p.mech.order = .close then
    closeFailTaken p.mech.placer (closeEnded (raise .mechanismFail (placeMechanism (endOrder p))))
  else p

/-! ## Energy-ready -/

/-- A change of energy-ready (R45): it is announced to the Sequencer and to the Hunt, once start-up is complete. -/
def energyChanged (high : Bool) (p : Part) : Part :=
  let q : Part := { p with mech := { p.mech with energyHigh := high } }
  if high = p.mech.energyHigh then p
  else if p.started then huntConditionsChanged (seqConditionsChanged q)
  else q

/-! ## Requests -/

/-- TRIP (R58). -/
def askTrip (m : Master) (p : Part) : Part × Reply :=
  let answer := seqTripRequest m p
  (answer.1, Reply.done [byte answer.2.code])

/-- The first condition that refuses a CLOSE request (R66). -/
def closeRequestRefusal (p : Part) : Option Why :=
  if p.seq.state = .huntHeld then some .huntRunning
  else if p.seq.state ≠ .lockout then some .notLockout
  else if p.hasBlock .hotLine then some .hotLine
  else if p.hasBlock .mechanism then some .mechanismBlocked
  else if p.intake.state = .lost then some .measureLost
  else if !p.mech.energyHigh then some .energyLow
  else none

/-- CLOSE (R66). -/
def askClose (p : Part) : Part × Reply :=
  match closeRequestRefusal p with
  | some why => (p, Reply.wrong why)
  | none =>
    match placeClose .sequencer .manual p with
    | (q, some why) => (q, Reply.wrong why)
    | (q, none) =>
      ({ q with seq := { q.seq with state := .closing, shotsUsed := 0, purpose := .manual } }, Reply.done [])

/-- RESET MECHANISM (R53). -/
def askResetMechanism (p : Part) : Part × Reply :=
  if p.mech.order ≠ .none then (p, Reply.wrong .orderInProgress)
  else
    match p.position with
    | .opened => (seqMechanismReset (removePart .mechanism p), Reply.done [])
    | .closed => (seqMechanismReset (removePart .mechanism p), Reply.done [])
    | _ => (p, Reply.wrong .positionUnsettled)

end Sys2Proof.Machine
end

