-- ==== Sys2Proof/Machine/HuntRequests.lean ====
section
/-! DEFINITION. The requests that the Hunt owns (07_earth_fault_hunt.md): the section table, the start and the abort of a hunt,
switch reports, and the reads. -/

namespace Sys2Proof.Machine

/-! ## Writing and confirming the section table -/

/-- A table with no header and no entries (R122); the operable flags NO and the order timeout none that it holds are the
model's (DESIGN CHOICE, log entry 32). -/
def SectionTable.blank (t : SectionTable) : SectionTable :=
  { t with n := none, timeout := none, switches := List.replicate 15 emptySwitch }

/-- A position as a confirmed image holds it, with the believed state it has. -/
def SwitchImage.onto (i : SwitchImage) (e : SwitchEntry) : SwitchEntry := ⟨i.ident, i.operable, e.believed⟩

/-- The table with the header and the entries of an image (R123, R124). -/
def SectionTable.fromImage (t : SectionTable) (i : TableImage) : SectionTable :=
  { t with n := some i.n, timeout := some i.timeout, switches := List.zipWith SwitchImage.onto i.switches t.switches }

/-- The table that a write begins from (R123). -/
def SectionTable.base (t : SectionTable) : SectionTable :=
  match t.state, t.image with
  | .empty, _ => t.blank
  | .editing, _ => t
  | .ready, some i => t.fromImage i
  | .ready, none => t

/-- The table after an accepted write of the header (R123). -/
def SectionTable.withHeader (t : SectionTable) (n timeout : Nat) : SectionTable :=
  { t.base with state := .editing, n := some n, timeout := some timeout }

/-- The table after an accepted write of position k (R123): the believed state becomes UNKNOWN. -/
def SectionTable.withEntry (t : SectionTable) (k ident : Nat) (operable : Bool) : SectionTable :=
  { t.base with
    state := .editing
    switches := t.base.switches.set (k - 1) ⟨if ident = 0 then none else some ident, operable, .unknown⟩ }

/-- WRITE SECTION of the header (R123). -/
def writeHeader (n timeout : Nat) (p : Part) : Part × Reply :=
  if !within 1 15 n || timeout < 30 then (p, Reply.bare .outOfRange)
  else if p.hunt.state.running then (p, Reply.wrong .huntRunning)
  else ({ p with table := p.table.withHeader n (min timeout 600) }, Reply.done (byte n :: bytes2 (min timeout 600)))

/-- WRITE SECTION of position k (R123). -/
def writeEntry (k ident operable : Nat) (p : Part) : Part × Reply :=
  if 254 < ident || 1 < operable then (p, Reply.bare .outOfRange)
  else if p.hunt.state.running then (p, Reply.wrong .huntRunning)
  else ({ p with table := p.table.withEntry k ident (operable = 1) }, Reply.done (byte ident :: bytes2 operable))

/-- WRITE SECTION (R123, R187): target 0 is HEADER. -/
def askWriteSection (target first : Byte) (second : Half) (p : Part) : Part × Reply :=
  if target.toNat = 0 then writeHeader first.toNat second.toNat p
  else if target.toNat ≤ 15 then writeEntry target.toNat first.toNat second.toNat p
  else (p, Reply.bare .outOfRange)

/-- The lowest position in use without an identity (R124, check 2). -/
def SectionTable.lowestUnnamed (t : SectionTable) : Option Nat := t.positions.find? fun k => (t.switch k).ident.isNone

/-- Whether position k repeats an identity at a lower position (R124, check 3). -/
def SectionTable.repeats (t : SectionTable) (k : Nat) : Bool :=
  (List.range' 1 (k - 1)).any fun j => (t.switch j).ident = (t.switch k).ident

/-- The lowest position in use whose identity repeats one below it (R124, check 3). -/
def SectionTable.lowestRepeat (t : SectionTable) : Option Nat := t.positions.find? t.repeats

/-- The first failing check of a table, with the position it reports (R124). -/
def SectionTable.failingCheck (t : SectionTable) : Option (Nat × Nat) :=
  match t.n with
  | none => some (1, 0)
  | some _ =>
    match t.lowestUnnamed with
    | some k => some (2, k)
    | none => t.lowestRepeat.map fun k => (3, k)

/-- The image of a table (R124, R192). -/
def SectionTable.toImage (t : SectionTable) : TableImage :=
  ⟨t.n.getD 0, t.timeout.getD 0, t.switches.map fun e => ⟨e.ident, e.operable⟩⟩

/-- A confirmation whose checks pass (R124). -/
def sectionsConfirmed (k : LinkId) (p : Part) : Part × Reply :=
  (queueWrite (.sections (some p.table.toImage)) (some k)
      { p with table := { p.table with state := .ready, image := some p.table.toImage } },
    ⟨.done, [byte 0], true⟩)

/-- CONFIRM SECTIONS (R124). -/
def askConfirmSections (k : LinkId) (p : Part) : Part × Reply :=
  match p.table.state with
  | .empty => (p, Reply.check 1 0)
  | .ready => (p, Reply.done [byte 1])
  | .editing =>
    match p.table.failingCheck with
    | some (check, position) => (p, Reply.check check position)
    | none => sectionsConfirmed k p

/-- Three bytes of READ SECTIONS for position k (R191). -/
def Part.sectionBytes (p : Part) (k : Nat) : List Byte :=
  let e := p.table.switch k
  [byte (e.ident.getD 0), byte (flag e.operable + 2 * flag (hasPosition p.hunt.unusable k)), byte e.believed.code]

/-- READ SECTIONS (R125, R191). -/
def askReadSections (p : Part) : Reply :=
  Reply.done
    ([byte p.table.state.code, byteOrNone p.table.n] ++ bytes2OrNone p.table.timeout
      ++ (List.range' 1 15).flatMap p.sectionBytes)

/-! ## Start and abort -/

/-- Started-by of a master's START HUNT (R128). Only LOCAL and CONTROL pass the rights check. -/
def starterOf : Master → StartedBy
  | .control => .control
  | _ => .bay

/-- START HUNT (R128). -/
def askStartHunt (m : Master) (p : Part) : Part × Reply :=
  match startRefusal p with
  | some why => (p, Reply.wrong why)
  | none => (beginHunt (starterOf m) p, Reply.done [])

/-- ABORT HUNT (R149). -/
def askAbortHunt (m : Master) (p : Part) : Part × Reply :=
  if p.hunt.state.running then (abandon .aborted (some (.master m)) (manualCall m) p, Reply.done [])
  else (p, Reply.wrong .notRunning)

/-! ## Reports -/

/-- The state a report carries: OPEN 0, CLOSED 1, FAILED 2 (R187), as the believed state it sets (R126). -/
def reportedState : Nat → Option Believed
  | 0 => some .opened
  | 1 => some .closed
  | 2 => some .unknown
  | _ => none

/-- The positions in use that hold an identity (R126). -/
def SectionTable.holders (t : SectionTable) (ident : Nat) : List Nat :=
  t.positions.filter fun k => (t.switch k).ident = some ident

/-- The table with the believed state of each holder of an identity set (R126). -/
def SectionTable.reported (t : SectionTable) (ident : Nat) (b : Believed) : SectionTable :=
  (t.holders ident).foldl (fun t k => t.withBelieved k b) t

/-- The outstanding order that a reference names (R126): a value above 255 means NONE (R187). -/
def Hunt.referred (h : Hunt) (reference : Nat) : Option SwitchOrder :=
  match h.outstanding with
  | some o => if o.number.toNat = reference then some o else none
  | none => none

/-- A report taken, its believed state set (R126). A TOO_LATE report has no further effect: no order is derived again, though
R132 says "whenever" (DESIGN CHOICE, log entry 33). -/
def reportTaken (b : Believed) (reference : Nat) (before : SectionTable) (p : Part) : Part × Reply :=
  if 255 < reference then (weighDisturbance before p, Reply.done [])
  else
    match p.hunt.referred reference with
    | some o => if p.hunt.state.running then (orderAnswered o b p, Reply.done []) else (p, Reply.bare .tooLate)
    | none => (p, Reply.bare .tooLate)

/-- Whether a report names the outstanding order and another switch than the order's (R126, item 3). -/
def Hunt.misnamed (h : Hunt) (ident reference : Nat) : Bool :=
  match h.referred reference with
  | some o => o.ident ≠ ident
  | none => false

/-- REPORT SWITCH (R126). -/
def askReportSwitch (ident state : Byte) (reference : Half) (p : Part) : Part × Reply :=
  match reportedState state.toNat with
  | none => (p, Reply.bare .outOfRange)
  | some b =>
    if !within 1 254 ident.toNat then (p, Reply.bare .outOfRange)
    else if (p.table.holders ident.toNat).isEmpty then (p, Reply.bare .notFound)
    else if p.hunt.misnamed ident.toNat reference.toNat then (p, Reply.bare .outOfRange)
    else reportTaken b reference.toNat p.table { p with table := p.table.reported ident.toNat b }

/-! ## Reading the hunt -/

/-- A hunt order, or six bytes of none (R190). -/
def Part.orderBytes (p : Part) (o : Option SwitchOrder) : List Byte :=
  match o with
  | some o =>
    [o.number, byte o.ident, byte o.position, byte o.action.code] ++ bytes2OrNone ((p.msLeft p.hunt.orderTimer).map secondsOf)
  | none => List.replicate 6 255

/-- READ HUNT ORDER (R133, R190). -/
def askReadHuntOrder (p : Part) : Reply :=
  match p.hunt.outstanding with
  | some o => Reply.done (p.orderBytes (some o))
  | none => Reply.bare .notFound

/-- A live value of the hunt: none while no hunt runs (R190, DEDUCED, log entry 34). -/
def Hunt.live (h : Hunt) (v : Option Nat) : Option Nat := if h.state.running then v else none

/-- Bytes 20 to 29 of READ HUNT: the last hunt result (R190). -/
def resultBytes : Option HuntResult → List Byte
  | none => List.replicate 10 255
  | some r =>
    [byte r.outcome.code, byte r.reason.code, byteOrNone (r.detail.map HuntDetail.code), byte r.startedBy.code, byte r.lo,
        byte r.hi, byte r.testsUsed, byte r.testLimit]
      ++ bytes2 r.unusable.toNat

/-- READ HUNT (R148, R190). Orders issued stand in byte 10 whether or not a hunt runs; close due has its own NONE. Which live
values apply in which state R190 does not say: here all of them exactly while a hunt is running, as R148 lists them (DEDUCED,
log entry 34). -/
def askReadHunt (p : Part) : Reply :=
  let h := p.hunt
  Reply.done
    ([byte h.state.code, byte (flag h.handBackPending), byteOrNone (h.live (some h.lo)), byteOrNone (h.live (some h.hi)),
        byteOrNone (h.live h.probe), byteOrNone (h.live (some (flag h.doubtfulSeen))),
        byteOrNone (h.live (some h.testsUsed)), byteOrNone (h.live h.testLimit)]
      ++ bytes2OrNone (h.live h.testPickup) ++ [byte h.ordersIssued] ++ p.orderBytes h.outstanding
      ++ [byte h.closeDue.code, byteOrNone (h.live (some h.settleCount)), byteOrNone (h.live (some h.windowCount))]
      ++ resultBytes h.result)

end Sys2Proof.Machine
end

