-- ==== Sys2Proof/Machine/Notices.lean ====
section
/-! DEFINITION. The requests on a master's notices (09_notices_and_attention_lines.md) and the holdoff, and READ RECORD
(08_fault_records.md). Latching and the weighing of the lines stand in Ops.lean. -/

namespace Sys2Proof.Machine

/-! ## Notices -/

/-- The holdoff timer after a read that returns a kind (R167). -/
def Part.startedHoldoff (p : Part) (n : MasterNotices) : Option Nat := if n.holdoff = 0 then none else p.timer n.holdoff

/-- A read that takes a kind (R165). -/
def takeKind (m : Master) (k : NoticeKind) (p : Part) : Part :=
  let n := p.notices.get m
  setNotices m { n with latched := n.latched &&& ~~~k.bit, holdoffTimer := p.startedHoldoff n } p

/-- The DONE body of READ NOTICE (R191). -/
def noticeBody (kind : Nat) (n : MasterNotices) : List Byte :=
  byte kind :: (bytes2 n.latched.toNat ++ bytes2 n.mask.toNat)

/-- READ NOTICE (R165, R166). -/
def askReadNotice (m : Master) (p : Part) : Part × Reply :=
  match (p.notices.get m).first with
  | none => (p, Reply.done (noticeBody 255 (p.notices.get m)))
  | some k =>
    let q := takeKind m k p
    (q, Reply.done (noticeBody k.priority (q.notices.get m)))

/-- A mask set as applied: TRIP is never masked (R168). -/
def appliedMask (mask : Half) : KindSet := (mask.setWidth 13) &&& ~~~NoticeKind.trip.bit

/-- SET NOTICE MASK (R168). -/
def askSetMask (m : Master) (mask : Half) (p : Part) : Part × Reply :=
  if 8192 ≤ mask.toNat then (p, Reply.bare .outOfRange)
  else
    (setNotices m { p.notices.get m with mask := appliedMask mask } p, Reply.done (bytes2 (appliedMask mask).toNat))

/-- A holdoff as applied (R170). -/
def appliedHoldoff (ms : Nat) : Nat := min ms 1000

/-- SET HOLDOFF (R170): the line is not weighed. -/
def askSetHoldoff (m : Master) (ms : Half) (p : Part) : Part × Reply :=
  ({ p with notices := p.notices.set m { p.notices.get m with holdoff := appliedHoldoff ms.toNat } },
    Reply.done (bytes2 (appliedHoldoff ms.toNat)))

/-- The holdoff timer's expiry taken (R167). -/
def holdoffEnded (m : Master) (p : Part) : Part := setNotices m { p.notices.get m with holdoffTimer := none } p

/-- A master's notice state after a link reset, its line apart (R174). -/
def freshNotices : MasterNotices :=
  { latched := NoticeKind.ready.bit, mask := 0, holdoff := 20, holdoffTimer := none, line := false }

/-- The notice state of a master whose link is reset (R174). -/
def resetNotices (m : Master) (p : Part) : Part := setNotices m freshNotices p

/-! ## Fault records -/

/-- The peak of a channel in two bytes (R189). -/
def peakBytes (k : Option Peak) : List Byte := bytes2OrNone (k.map (·.magnitude))

/-- Whether a channel's peak carries the clipped marker. -/
def peakClipped (k : Option Peak) : Bool :=
  match k with
  | some k => k.clipped
  | none => false

/-- The 27 bytes of a record (R189). -/
def FaultRecord.bytes (r : FaultRecord) : List Byte :=
  bytes2 r.number ++ bytes4 r.uptime ++ [byte r.origin.code] ++ bytes2 r.causes.code
    ++ [byteOrNone (r.requester.map Master.code), byte (phaseCode r.highsetLanes), byte (laneCode r.sotfLanes), byte r.shot,
        byte r.active.code, byte r.level.code]
    ++ peakBytes r.peaks.a ++ peakBytes r.peaks.b ++ peakBytes r.peaks.c ++ peakBytes r.peaks.n
    ++ [byte (laneCode (Quad.map peakClipped r.peaks))] ++ bytes2 (r.steps.getD 0) ++ [byte r.outcome.code]

/-- The three bytes that begin every answer to READ RECORD (R189). -/
def Records.head (r : Records) : List Byte := byte r.ring.length :: bytes2 r.next

/-- READ RECORD (R158, R189). -/
def askReadRecord (index : Byte) (p : Part) : Reply :=
  if 16 ≤ index.toNat then ⟨.outOfRange, p.records.head, false⟩
  else
    match p.records.ring[index.toNat]? with
    | none => ⟨.notFound, p.records.head, false⟩
    | some r => Reply.done (p.records.head ++ r.bytes)

end Sys2Proof.Machine
end

