-- ==== Sys2Proof/Machine/Status.lean ====
section
/-! DEFINITION. STATUS (R183) and its layout (R188). -/

namespace Sys2Proof.Machine

/-- The Sequencer's running timer: its number and the time remaining (R77, R188). -/
def Part.runningTimer (p : Part) : Nat × Option Nat :=
  match p.seq.state with
  | .deadTime => (1, p.msLeft p.seq.deadTimer)
  | .closeWait => (2, p.msLeft p.seq.closeWaitTimer)
  | .reclaim => (3, p.msLeft p.seq.reclaimTimer)
  | _ => (0, none)

/-- Byte 2 of STATUS (R188). -/
def Part.statusFlags (p : Part) : Nat :=
  flag p.mech.energyHigh + 2 * flag p.intake.sourceLive + 4 * flag p.posture.hotLinePresent + 8 * flag p.posture.silent
    + 16 * flag (p.intake.state = .lost)

/-- Bytes 6 to 9 of STATUS: the last trip (R188). -/
def lastTripBytes : Option LastTrip → List Byte
  | none => [255, 255] ++ bytes2OrNone none
  | some t => [byte t.origin.code, byteOrNone (t.requester.map Master.code)] ++ bytes2 t.causes.code

/-- Bytes 33 to 35 of STATUS: the health of a link (R188). -/
def Link.healthByte (l : Link) : Byte :=
  match l.role with
  | .disabled => 255
  | .held _ => byte (l.health + 128 * flag l.faulty)

/-- Bytes 0 to 15 of STATUS: the Sequencer and the breaker (R188). -/
def Part.statusSequence (p : Part) : List Byte :=
  [byte p.seq.state.code, byte p.position.code, byte p.statusFlags, byte p.seq.shotsUsed, byteOrNone p.seq.pendingShot,
      byte p.seq.purpose.code]
    ++ lastTripBytes p.seq.lastTrip
    ++ [byteOrNone (p.seq.lockoutReason.map LockoutReason.code), byte p.runningTimer.1]
    ++ bytes4OrNone p.runningTimer.2

/-- Bytes 16 to 27 of STATUS: Posture (R120, R188). -/
def Part.statusPosture (p : Part) : List Byte :=
  [byte p.posture.active.code, byte (GroupId.code p.posture.wanted), byte p.posture.level.code,
      byte p.posture.season.code, byte p.posture.declared.code]
    ++ bytes4OrNone (p.posture.declaredExpiry.map (· - p.uptime))
    ++ [byte p.posture.localRaise.code]
    ++ bytes2OrNone ((p.msLeft p.posture.silenceTimer).map secondsOf)

/-- Bytes 28 to 39 of STATUS: the other blocks and the uptime (R188). -/
def Part.statusRest (p : Part) : List Byte :=
  [byte p.entries.length, byte p.hunt.state.code, byte p.intake.loss,
      byte (laneCode p.elements.mask + 16 * flag p.elements.sefPicked), byte p.intake.quality, p.links.link1.healthByte,
      p.links.link2.healthByte, p.links.link3.healthByte]
    ++ bytes4 p.uptime

/-- STATUS (R183, R188). -/
def askStatus (p : Part) : Reply := Reply.done (p.statusSequence ++ p.statusPosture ++ p.statusRest)

end Sys2Proof.Machine
end

