-- ==== Sys2Proof/WellFormed.lean ====
section
/-! DEFINITION. Which commands can occur at all. Every request is well-formed whatever the values of its body (R178: a value
out of range does not make a frame malformed), so only the events carry a check. -/

namespace Sys2Proof

/-- A length byte that begins no frame: 0 or above 40 (R176). -/
def badLength (b : Byte) : Bool := b = 0 || 40 < b.toNat

/-- The checks on a command.
- A measurement frame holds at least one byte: it arrives 1 ms after a received byte (R1).
- BAD_LENGTH_BYTE carries a length byte of 0 or above 40 (R176).
- BLOCK_EXPIRY names an entry of LOCAL or CONTROL: only they place an OPERATOR (R81, R88).
- COLD_START names no damaged item twice. -/
def Instr.wellFormed : Instr → Bool
  | .coldStart reads => decide reads.damaged.Nodup
  | .measurementFrame bytes => !bytes.isEmpty
  | .badLengthByte _ b => badLength b
  | .blockExpiry owner _ => owner ≠ .crew
  | _ => true

end Sys2Proof
end

