-- ==== Sys2Proof/Machine/Links.lean ====
section
/-! DEFINITION. Master Links (10_master_links_and_requests.md): the receive side, the service side, health, rights, the owners
of the requests, answers, RESET LINK; and the completion of a Store write (11), which releases a held answer. -/

namespace Sys2Proof.Machine

/-- A link replaced. -/
def setLink (k : LinkId) (l : Link) (p : Part) : Part := { p with links := p.links.set k l }

/-! ## Health (R179) -/

/-- The count of a malformed frame or an overrun (R179). -/
def countBad (k : LinkId) (p : Part) : Part :=
  let l := p.links.get k
  let n := min (l.health + 1) counterFull
  if n = counterFull && !l.faulty then raiseLinkFault k (setLink k { l with health := n, faulty := true } p)
  else setLink k { l with health := n } p

/-- The count of a well-formed frame (R179). -/
def countGood (k : LinkId) (p : Part) : Part :=
  let l := p.links.get k
  if l.health - 1 = 0 && l.faulty then raiseLinkFault k (setLink k { l with health := 0, faulty := false } p)
  else setLink k { l with health := l.health - 1 } p

/-! ## Link reset -/

/-- The receive side and the waiting place emptied (R184, item 1). -/
def Link.cleared (l : Link) (quiet : Option Nat) : Link :=
  { l with receive := .quietWait, length := 0, bytes := [], gapTimer := none, quietTimer := quiet, waiting := none }

/-- The health after a link reset (R184, item 2). -/
def resetHealth (k : LinkId) (p : Part) : Part :=
  let l := p.links.get k
  if l.faulty then raiseLinkFault k (setLink k { l with health := 0, faulty := false } p)
  else setLink k { l with health := 0 } p

/-- RESET LINK (R184). -/
def askResetLink (k : LinkId) (m : Master) (p : Part) : Part × Reply :=
  (resetNotices m (resetHealth k (setLink k ((p.links.get k).cleared (p.timer 5)) p)), Reply.done [])

/-! ## Owners -/

/-- A request that has passed its rights check, taken by its owner (R178, item 4). -/
def ownerTakes (k : LinkId) (m : Master) (r : Request) (p : Part) : Part × Reply :=
  match r with
  | .status => (p, askStatus p)
  | .readMeasurements => (p, askReadMeasurements p)
  | .clearQuality => askClearQuality p
  | .readNotice => askReadNotice m p
  | .setNoticeMask mask => askSetMask m mask p
  | .setHoldoff ms => askSetHoldoff m ms p
  | .trip => askTrip m p
  | .close => askClose p
  | .resetMechanism => askResetMechanism p
  | .placeBlock kind reason expiry => askPlaceBlock k m kind reason expiry p
  | .removeBlock kind owner reason => askRemoveBlock k m kind owner reason p
  | .readBlocks => (p, askReadBlocks p)
  | .readSetting target field => (p, askReadSetting target field p)
  | .writeSetting target field value => askWriteSetting target field value p
  | .confirmGroup group => askConfirmGroup k group p
  | .readGroupState => (p, askReadGroupState p)
  | .setSeason season => askSetSeason k season p
  | .declareFireLevel level hours => askDeclare level hours p
  | .raiseLocalLevel level => askRaiseLocal level p
  | .clearLocalLevel => askClearLocal p
  | .writeSection target first second => askWriteSection target first second p
  | .confirmSections => askConfirmSections k p
  | .readSections => (p, askReadSections p)
  | .startHunt => askStartHunt m p
  | .abortHunt => askAbortHunt m p
  | .readHuntOrder => (p, askReadHuntOrder p)
  | .reportSwitch ident state reference => askReportSwitch ident state reference p
  | .readHunt => (p, askReadHunt p)
  | .readRecord index => (p, askReadRecord index p)
  | .resetLink => askResetLink k m p

/-- The rights check, then the owner (R178, items 3 and 4; R181). -/
def weigh (k : LinkId) (m : Master) (r : Request) (p : Part) : Part × Reply :=
  if mayRequest m r then ownerTakes k m r p else (p, Reply.bare .noRight)

/-! ## The service side -/

/-- CONTROL's link hands a well-formed frame to Posture (R178 item 2, R180). -/
def heard (m : Master) (p : Part) : Part :=
  match m with
  | .control => controlHeard p
  | _ => p

/-- A well-formed frame, from item 2 up to the rights check (R178): the link is BUSY with it. -/
def wellFormed (k : LinkId) (m : Master) (frame : List Byte) (p : Part) : Part :=
  heard m (countGood k (setLink k { p.links.get k with busy := true, inHand := some frame } p))

/-- The answer is fixed, to be sent at once or held for the Store (R182). -/
def giveAnswer (k : LinkId) (r : Request) (reply : Reply) (p : Part) : Part :=
  setLink k { p.links.get k with answer := some ⟨reply.frame r.code, reply.held⟩ } p

/-- A well-formed request of a master taken (R178, items 2 to 5). -/
def serve (k : LinkId) (m : Master) (frame : List Byte) (r : Request) (p : Part) : Part :=
  let taken := weigh k m r (wellFormed k m frame p)
  giveAnswer k r taken.2 taken.1

/-- A complete frame taken by a FREE link (R178): a malformed one is counted and not answered. -/
def takeFrameOn (k : LinkId) (frame : List Byte) (p : Part) : Part :=
  match (p.links.get k).role with
  | .disabled => p
  | .held m =>
    match readRequest frame with
    | none => countBad k p
    | some r => serve k m frame r p

/-- A complete frame handed to the service side (R177). -/
def deliver (k : LinkId) (frame : List Byte) (p : Part) : Part :=
  let l := p.links.get k
  if !l.busy then takeFrameOn k frame p
  else if l.waiting.isNone then setLink k { l with waiting := some frame } p
  else countBad k p

/-- The link becomes FREE, and a waiting frame is taken (R177). -/
def becomeFree (k : LinkId) (p : Part) : Part :=
  let l := p.links.get k
  let q := setLink k { l with busy := false, inHand := none, answer := none, waiting := none } p
  match l.waiting with
  | some frame => takeFrameOn k frame q
  | none => q

/-- The last byte of an answer has been sent (R177). An answer that is held, or none, cannot have been sent.
(DESIGN CHOICE, log entry 20.) -/
def answerGone (k : LinkId) (p : Part) : Part :=
  match (p.links.get k).answer with
  | some a => if a.held then p else becomeFree k p
  | none => p

/-- A request arrives as a complete, well-formed frame (R177, R178; DEDUCED, log entry 5). A link that is DISABLED, or a part that has
not completed start-up, takes none (R175, R185). -/
def request (k : LinkId) (r : Request) (p : Part) : Part :=
  if p.started && (p.links.get k).role ≠ .disabled then deliver k r.frame p else p

/-! ## The receive side (R176) -/

/-- A byte that comes in IDLE: the length byte of a new frame (R176). -/
def lengthByte (k : LinkId) (b : Byte) (p : Part) : Part :=
  if badLength b then
    countBad k (setLink k { p.links.get k with receive := .quietWait, quietTimer := p.timer 5 } p)
  else
    setLink k { p.links.get k with receive := .inFrame, length := b.toNat, bytes := [], gapTimer := p.timer 5 } p

/-- The receive side after a frame has ended, complete or abandoned on a gap (R176). -/
def Link.idled (l : Link) : Link := { l with receive := .idle, length := 0, bytes := [], gapTimer := none }

/-- A byte that comes in IN_FRAME (R176). -/
def frameByte (k : LinkId) (b : Byte) (p : Part) : Part :=
  let l := p.links.get k
  if l.length ≤ l.bytes.length + 1 then deliver k (l.bytes ++ [b]) (setLink k l.idled p)
  else setLink k { l with bytes := l.bytes ++ [b], gapTimer := p.timer 5 } p

/-- A byte received on a link that is in service (R176). -/
def byteTaken (k : LinkId) (b : Byte) (p : Part) : Part :=
  match (p.links.get k).receive with
  | .quietWait => setLink k { p.links.get k with quietTimer := p.timer 5 } p
  | .idle => lengthByte k b p
  | .inFrame => frameByte k b p

/-- A byte received (R176): ignored before start-up is complete (R185) and on a DISABLED link (R175).
(DEDUCED, log entry 26.) -/
def receiveByte (k : LinkId) (b : Byte) (p : Part) : Part :=
  if p.started && (p.links.get k).role ≠ .disabled then byteTaken k b p else p

/-- The gap timer's expiry taken (R176). -/
def gapEnded (k : LinkId) (p : Part) : Part :=
  let q := setLink k { p.links.get k with gapTimer := none } p
  if (q.links.get k).receive = .inFrame then countBad k (setLink k (q.links.get k).idled q) else q

/-- The quiet timer's expiry taken (R176). -/
def quietWaitEnded (k : LinkId) (p : Part) : Part :=
  let q := setLink k { p.links.get k with quietTimer := none } p
  if (q.links.get k).receive = .quietWait then setLink k { q.links.get k with receive := .idle } q else q

/-! ## The Store's completions -/

/-- An item that now holds the contents written, with their mark (R193, R194). -/
def written (w : Write) (s : Store) : Store :=
  match w with
  | .group g image => { s with groups := s.groups.set g ⟨image, true⟩ }
  | .sections image => { s with sections := ⟨image, true⟩ }
  | .season season => { s with season := ⟨season, true⟩ }
  | .slot n entry => { s with slots := s.slots.set n ⟨entry, true⟩ }

/-- The link that waits on a write may send the answer it has held (R182, R194). -/
def releaseAnswer (k : Option LinkId) (p : Part) : Part :=
  match k with
  | none => p
  | some k =>
    match (p.links.get k).answer with
    | some a => setLink k { p.links.get k with answer := some { a with held := false } } p
    | none => p

/-- The write in progress completes (R194): the item holds what was carried, the waiting link is told, and the next write
begins. -/
def writeCompleted (p : Part) : Part :=
  match p.store.queue with
  | [] => p
  | w :: rest =>
    if p.store.writing then
      beginWrite
        (releaseAnswer w.link
          { p with store := { written w.write p.store with queue := rest, writing := false, writeTimer := none } })
    else p

end Sys2Proof.Machine
end

