-- ==== Sys2Proof/Machine/ColdStart.lean ====
section
/-! DEFINITION. Cold start (11_stored_image_and_cold_start.md): what is restored from the image, the block list it builds, the
part that start-up assembles, and the completion of start-up. -/

namespace Sys2Proof.Machine

/-! ## Roles (R175) -/

/-- The role of a strap, where the roles already given are known (R175). -/
def roleOf (strap : Option Master) (given : List Role) : Role :=
  match strap with
  | none => .disabled
  | some m => if .held m ∈ given then .disabled else .held m

/-- The roles of the three links, in link order (R175). -/
def rolesOf (r : ColdReads) : PerLink Role :=
  let r1 := roleOf r.strap1 []
  let r2 := roleOf r.strap2 [r1]
  ⟨r1, r2, roleOf r.strap3 [r1, r2]⟩

/-! ## The image after damage (R193) -/

/-- One item whose memory lost or altered what was written (R193).
(DESIGN CHOICE, log entry 24.) -/
def damage (s : Store) (i : ItemId) : Store :=
  match i with
  | .group g => { s with groups := s.groups.set g { s.groups.get g with valid := false } }
  | .sections => { s with sections := { s.sections with valid := false } }
  | .season => { s with season := { s.season with valid := false } }
  | .slot n => { s with slots := s.slots.set n { s.slots.get n with valid := false } }

/-- What an item restores to: its contents if it is valid (R197). -/
def Item.restored {α : Type} (i : Item α) (otherwise : α) : α := if i.valid then i.contents else otherwise

/-! ## Restored groups, table and list -/

/-- A restored group (R197, R121). -/
def restoredGroup (i : Item (Option Settings)) : Group :=
  match i.restored none with
  | some s => ⟨.ready, some s, some s⟩
  | none => ⟨.empty, none, none⟩

/-- A restored section table (R197, R124): every believed state is UNKNOWN. -/
def restoredTable (i : Item (Option TableImage)) : SectionTable :=
  match i.restored none with
  | some image => ⟨.ready, some image.n, some image.timeout, image.switches.map fun e => ⟨e.ident, e.operable, .unknown⟩, some image⟩
  | none => ⟨.empty, none, none, List.replicate 15 emptySwitch, none⟩

/-- An entry restored from a slot (R94, item 1). -/
def restoredEntry (n : SlotId) (e : SlotEntry) : BlockEntry := ⟨e.kind, e.owner, e.reason, 0, none, none, some n⟩

/-- The entry that an invalid slot gives (R94, item 2). -/
def gravestEntry : SlotEntry := ⟨.hotLine, .master .control, 0⟩

/-- Whether a list holds an entry of these three fields (R80). -/
def holdsEntry (l : List BlockEntry) (e : SlotEntry) : Bool := (findEntry l e.kind e.owner e.reason).isSome

/-- The list after a valid slot (R94, item 1). -/
def addValid (slots : PerSlot (Item (Option SlotEntry))) (l : List BlockEntry) (n : SlotId) : List BlockEntry :=
  if (slots.get n).valid then
    match (slots.get n).contents with
    | some e => if holdsEntry l e then l else l ++ [restoredEntry n e]
    | none => l
  else l

/-- The list after an invalid slot (R94, item 2). -/
def addInvalid (slots : PerSlot (Item (Option SlotEntry))) (l : List BlockEntry) (n : SlotId) : List BlockEntry :=
  if (slots.get n).valid || holdsEntry l gravestEntry then l else l ++ [restoredEntry n gravestEntry]

/-- The entries that the slots give, in the order of R94. -/
def slotEntries (slots : PerSlot (Item (Option SlotEntry))) : List BlockEntry :=
  allSlots.foldl (addInvalid slots) (allSlots.foldl (addValid slots) [])

/-- Intake's MEASURE entry at start-up (R94, item 3). -/
def startMeasure : BlockEntry := ⟨.measure, .part, 0, 0, none, none, none⟩

/-- The block list after cold start (R94, R95). -/
def startEntries (s : Store) : List BlockEntry := slotEntries s.slots ++ [startMeasure]

/-! ## Writes queued at start-up (R197, in the order of R192) -/

/-- The write of a group image found invalid. -/
def groupRewrite (s : Store) (g : GroupId) : List Write := if (s.groups.get g).valid then [] else [.group g none]

/-- The entry of the list that a slot is assigned to, as the slot holds it. -/
def slotHolds (l : List BlockEntry) (n : SlotId) : Option SlotEntry :=
  (l.find? fun e => e.slot = some n).map BlockEntry.stored

/-- The write of a slot that is invalid, or valid and dropped (R94). -/
def slotRewrite (s : Store) (n : SlotId) : List Write :=
  let now := slotHolds (slotEntries s.slots) n
  if (s.slots.get n).valid && (s.slots.get n).contents = now then [] else [.slot n now]

/-- The writes queued at start-up (R197). -/
def startWrites (s : Store) : List Write :=
  groupRewrite s .g0 ++ groupRewrite s .g1 ++ groupRewrite s .g2 ++ groupRewrite s .g3
    ++ (if s.sections.valid then [] else [.sections none])
    ++ (if s.season.valid then [] else [.season .fireSeason])
    ++ allSlots.flatMap (slotRewrite s)

/-- The Store after cold start (R200). -/
def startStore (s : Store) : Store :=
  { s with queue := (startWrites s).map fun w => ⟨w, none⟩, writing := false, writeTimer := none }

/-! ## Start-up -/

/-- Posture after cold start, from the restored image and the HOT_LINE count (R121). -/
def startPosture (s : Store) (hotLines : Nat) : Posture :=
  { Part.reset.posture with
    groups :=
      ⟨restoredGroup s.groups.g0, restoredGroup s.groups.g1, restoredGroup s.groups.g2, restoredGroup s.groups.g3⟩
    season := s.season.restored .fireSeason
    hotLinePresent := 0 < hotLines }.select

/-- The links after cold start (R185). -/
def startLinks (roles : PerLink Role) : PerLink Link :=
  ⟨{ Part.reset.links.link1 with role := roles.link1 }, { Part.reset.links.link2 with role := roles.link2 },
    { Part.reset.links.link3 with role := roles.link3 }⟩

/-- The part at the end of start-up, from the image and what start-up reads (R196, R198). -/
def startPart (r : ColdReads) (s : Store) : Part :=
  readContacts r.openMade r.closedMade
    { Part.reset with
      coldInput := r.inputHolds
      mech := { Part.reset.mech with energyHigh := r.energyHigh }
      entries := startEntries s
      posture := startPosture s (hotLineCount (slotEntries s.slots))
      table := restoredTable s.sections
      links := startLinks (rolesOf r)
      store := startStore s }

/-- A cold start (R196 to R198).
(DEDUCED, log entry 7.) -/
def coldStarted (r : ColdReads) (p : Part) : Part := startPart r (r.damaged.foldl damage p.store)

/-- The timers that start as start-up completes (R199).
(DEDUCED, log entry 30.) -/
def startTimers (p : Part) : Part :=
  { p with
    mech :=
      { p.mech with
        travelTimer := if p.position = .travel then p.timer 300 else none
        discrepancyTimer := if p.position = .discrepant then p.timer 300 else none }
    intake := { p.intake with frameDue := p.timer 15 }
    links :=
      ⟨{ p.links.link1 with quietTimer := p.timer 5 }, { p.links.link2 with quietTimer := p.timer 5 },
        { p.links.link3 with quietTimer := p.timer 5 }⟩ }

/-- Every attention line weighed (R164, R173). -/
def weighLines (p : Part) : Part :=
  setNotices .crew p.notices.crew (setNotices .control p.notices.control (setNotices .bay p.notices.bay p))

/-- Start-up reaches its end. While the cold-start input is asserted it does not complete: the part is held as it stands
(R196). Once the input is released it completes, and the uptime counts from 0 (R199). -/
def startedUp (p : Part) : Part :=
  if p.started then p
  else match p.coldInput with
    | holds + 1 => { p with coldInput := holds }
    | 0 => weighLines (startTimers (beginWrite { p with started := true, clock := 0 }))

end Sys2Proof.Machine
end

