-- ==== Sys2Proof/Machine/EventCommands.lean ====
section
/-! DEFINITION. The meanings of the commands that are events: cold start, frames, contacts, inputs, every timer, bytes,
answers sent and writes completed. Each is one definition over the operations of its chapter, and each answers a next
state: no event stops the part. -/

namespace Sys2Proof.Machine

/-- A command's outcome: its effect on the part, the queue of commands left as it is. -/
def after (f : Part → Part) (s : State) : Host.Outcome State Fault Refusal := .next { s with toPart := f s.toPart }

/-- The expiry of a timer: if it runs, the clock reaches its end and the effect follows; if it is stopped, the expiry does
not happen (DESIGN CHOICE, log entry 2). -/
def expired (t : Option Nat) (f : Part → Part) (p : Part) : Part :=
  match t with
  | some moment => f (p.reach moment)
  | none => p

/-- The timer of an order in progress of a kind, if it runs. -/
def Mechanism.timerOf (m : Mechanism) (o : Order) : Option Nat := if m.order = o then m.orderTimer else none

/-- COLD_START (R196 to R198): start-up is run up to its completion. -/
def execColdStart (reads : ColdReads) (s : State) : Host.Outcome State Fault Refusal :=
  after (coldStarted reads) s

/-- START_UP_COMPLETE (R196, R199). -/
def execStartUpComplete (s : State) : Host.Outcome State Fault Refusal :=
  after startedUp s

/-- MEASUREMENT_FRAME (R1 to R3). -/
def execMeasurementFrame (bytes : List Byte) (s : State) : Host.Outcome State Fault Refusal :=
  after (takeFrame bytes) s

/-- MISSING_FRAME_STEP (R4): the frame-due timer's expiry. -/
def execMissingFrameStep (s : State) : Host.Outcome State Fault Refusal :=
  after (fun p => expired p.intake.frameDue frameDueEnded p) s

/-- SOTF_WINDOW_EXPIRY (R28, DEDUCED, log entry 3). -/
def execSotfWindowExpiry (s : State) : Host.Outcome State Fault Refusal :=
  after sotfEnded s

/-- COLD_LOAD_WINDOW_EXPIRY (R29, DEDUCED, log entry 3). -/
def execColdLoadWindowExpiry (s : State) : Host.Outcome State Fault Refusal :=
  after coldLoadEnded s

/-- QUIET_END (R32, DEDUCED, log entry 3). -/
def execQuietEnd (s : State) : Host.Outcome State Fault Refusal :=
  after quietEnded s

/-- HUNT_TEST_WINDOW_END (R139, DESIGN CHOICE, log entry 4). -/
def execHuntTestWindowEnd (s : State) : Host.Outcome State Fault Refusal :=
  after huntWindowEnded s

/-- CONTACT_CHANGE (R41, R42). -/
def execContactChange (openMade closedMade : Bool) (s : State) : Host.Outcome State Fault Refusal :=
  after (contactsChanged openMade closedMade) s

/-- TRAVEL_TIMER_EXPIRY (R43). -/
def execTravelTimerExpiry (s : State) : Host.Outcome State Fault Refusal :=
  after (fun p => expired p.mech.travelTimer travelEnded p) s

/-- DISCREPANCY_TIMER_EXPIRY (R43). -/
def execDiscrepancyTimerExpiry (s : State) : Host.Outcome State Fault Refusal :=
  after (fun p => expired p.mech.discrepancyTimer discrepancyEnded p) s

/-- ENERGY_READY_CHANGE (R45). -/
def execEnergyReadyChange (high : Bool) (s : State) : Host.Outcome State Fault Refusal :=
  after (energyChanged high) s

/-- TRIP_ORDER_TIMEOUT (R48). -/
def execTripOrderTimeout (s : State) : Host.Outcome State Fault Refusal :=
  after (fun p => expired (p.mech.timerOf .trip) tripTimedOut p) s

/-- CLOSE_ORDER_TIMEOUT (R50). -/
def execCloseOrderTimeout (s : State) : Host.Outcome State Fault Refusal :=
  after (fun p => expired (p.mech.timerOf .close) closeTimedOut p) s

/-- DEAD_TIME_EXPIRY (R61). -/
def execDeadTimeExpiry (s : State) : Host.Outcome State Fault Refusal :=
  after (fun p => expired p.seq.deadTimer deadTimeEnded p) s

/-- CLOSE_WAIT_EXPIRY (R62). -/
def execCloseWaitExpiry (s : State) : Host.Outcome State Fault Refusal :=
  after (fun p => expired p.seq.closeWaitTimer closeWaitEnded p) s

/-- RECLAIM_EXPIRY (R65). -/
def execReclaimExpiry (s : State) : Host.Outcome State Fault Refusal :=
  after (fun p => expired p.seq.reclaimTimer reclaimEnded p) s

/-- BLOCK_EXPIRY (R88). -/
def execBlockExpiry (owner : Master) (reason : Byte) (s : State) : Host.Outcome State Fault Refusal :=
  after (blockExpired owner reason) s

/-- DECLARATION_EXPIRY (R110). -/
def execDeclarationExpiry (s : State) : Host.Outcome State Fault Refusal :=
  after (fun p => expired (p.posture.declaredExpiry.map (· * 1000)) declarationEnded p) s

/-- SILENCE_TIMER_EXPIRY (R112). -/
def execSilenceTimerExpiry (s : State) : Host.Outcome State Fault Refusal :=
  after (fun p => expired p.posture.silenceTimer silenceEnded p) s

/-- ORDER_TIMER_EXPIRY (R136). -/
def execOrderTimerExpiry (s : State) : Host.Outcome State Fault Refusal :=
  after (fun p => expired p.hunt.orderTimer orderTimerEnded p) s

/-- HUNT_CLOSE_WAIT_EXPIRY (R137). -/
def execHuntCloseWaitExpiry (s : State) : Host.Outcome State Fault Refusal :=
  after (fun p => expired p.hunt.closeWaitTimer huntCloseWaitEnded p) s

/-- HOLDOFF_EXPIRY (R167). -/
def execHoldoffExpiry (m : Master) (s : State) : Host.Outcome State Fault Refusal :=
  after (fun p => expired ((p.notices.get m).holdoffTimer) (holdoffEnded m) p) s

/-- BAD_LENGTH_BYTE (R176): a byte whose value begins no frame (DEDUCED, log entry 6). -/
def execBadLengthByte (k : LinkId) (b : Byte) (s : State) : Host.Outcome State Fault Refusal :=
  after (receiveByte k b) s

/-- GAP_TIMER_EXPIRY (R176). -/
def execGapTimerExpiry (k : LinkId) (s : State) : Host.Outcome State Fault Refusal :=
  after (fun p => expired ((p.links.get k).gapTimer) (gapEnded k) p) s

/-- QUIET_TIMER_EXPIRY (R176). -/
def execQuietTimerExpiry (k : LinkId) (s : State) : Host.Outcome State Fault Refusal :=
  after (fun p => expired ((p.links.get k).quietTimer) (quietWaitEnded k) p) s

/-- REQUEST_FRAME (R176, R177): the byte that completes the frame in progress (DEDUCED, log entry 6). -/
def execRequestFrame (k : LinkId) (b : Byte) (s : State) : Host.Outcome State Fault Refusal :=
  after (receiveByte k b) s

/-- ANSWER_SENT (R177). -/
def execAnswerSent (k : LinkId) (s : State) : Host.Outcome State Fault Refusal :=
  after (answerGone k) s

/-- STORE_WRITE_COMPLETE (R194). -/
def execStoreWriteComplete (s : State) : Host.Outcome State Fault Refusal :=
  after writeCompleted s

/-- LINK_BYTE_RECEIVED (R176). -/
def execLinkByteReceived (k : LinkId) (b : Byte) (s : State) : Host.Outcome State Fault Refusal :=
  after (receiveByte k b) s

end Sys2Proof.Machine
end

