-- ==== Sys2Proof/Machine/RequestCommands.lean ====
section
/-! DEFINITION. The meanings of the thirty requests. Each is the arrival, on a link, of the complete well-formed frame that
carries it (DEDUCED, log entry 5): taken at once by a FREE link, held in the waiting place of a BUSY one, or an overrun (R177).
What the owner does with a request that is taken is `ownerTakes`, by the rule that the command's line names. -/

namespace Sys2Proof.Machine

/-- STATUS (R183), code 1. -/
def execStatus (k : LinkId) (s : State) : Host.Outcome State Fault Refusal :=
  after (request k .status) s

/-- READ MEASUREMENTS (R15), code 2. -/
def execReadMeasurements (k : LinkId) (s : State) : Host.Outcome State Fault Refusal :=
  after (request k .readMeasurements) s

/-- CLEAR QUALITY (R9), code 3. -/
def execClearQuality (k : LinkId) (s : State) : Host.Outcome State Fault Refusal :=
  after (request k .clearQuality) s

/-- READ NOTICE (R165, R166), code 4. -/
def execReadNotice (k : LinkId) (s : State) : Host.Outcome State Fault Refusal :=
  after (request k .readNotice) s

/-- SET NOTICE MASK (R168), code 5. -/
def execSetNoticeMask (k : LinkId) (mask : Half) (s : State) : Host.Outcome State Fault Refusal :=
  after (request k (.setNoticeMask mask)) s

/-- SET HOLDOFF (R170), code 6. -/
def execSetHoldoff (k : LinkId) (ms : Half) (s : State) : Host.Outcome State Fault Refusal :=
  after (request k (.setHoldoff ms)) s

/-- TRIP (R58), code 7. -/
def execTrip (k : LinkId) (s : State) : Host.Outcome State Fault Refusal :=
  after (request k .trip) s

/-- CLOSE (R66), code 8. -/
def execClose (k : LinkId) (s : State) : Host.Outcome State Fault Refusal :=
  after (request k .close) s

/-- RESET MECHANISM (R53), code 9. -/
def execResetMechanism (k : LinkId) (s : State) : Host.Outcome State Fault Refusal :=
  after (request k .resetMechanism) s

/-- PLACE BLOCK (R82), code 10. -/
def execPlaceBlock (k : LinkId) (kind reason : Byte) (expiry : Half) (s : State) : Host.Outcome State Fault Refusal :=
  after (request k (.placeBlock kind reason expiry)) s

/-- REMOVE BLOCK (R86), code 11. -/
def execRemoveBlock (k : LinkId) (kind owner reason : Byte) (s : State) : Host.Outcome State Fault Refusal :=
  after (request k (.removeBlock kind owner reason)) s

/-- READ BLOCKS (R91), code 12. -/
def execReadBlocks (k : LinkId) (s : State) : Host.Outcome State Fault Refusal :=
  after (request k .readBlocks) s

/-- READ SETTING (R106), code 13. -/
def execReadSetting (k : LinkId) (target field : Byte) (s : State) : Host.Outcome State Fault Refusal :=
  after (request k (.readSetting target field)) s

/-- WRITE SETTING (R99), code 14. -/
def execWriteSetting (k : LinkId) (target field : Byte) (value : Long) (s : State) : Host.Outcome State Fault Refusal :=
  after (request k (.writeSetting target field value)) s

/-- CONFIRM GROUP (R102), code 15. -/
def execConfirmGroup (k : LinkId) (group : Byte) (s : State) : Host.Outcome State Fault Refusal :=
  after (request k (.confirmGroup group)) s

/-- READ GROUP STATE (R106), code 16. -/
def execReadGroupState (k : LinkId) (s : State) : Host.Outcome State Fault Refusal :=
  after (request k .readGroupState) s

/-- SET SEASON (R108), code 17. -/
def execSetSeason (k : LinkId) (season : Byte) (s : State) : Host.Outcome State Fault Refusal :=
  after (request k (.setSeason season)) s

/-- DECLARE FIRE LEVEL (R109), code 18. -/
def execDeclareFireLevel (k : LinkId) (level hours : Byte) (s : State) : Host.Outcome State Fault Refusal :=
  after (request k (.declareFireLevel level hours)) s

/-- RAISE LOCAL LEVEL (R111), code 19. -/
def execRaiseLocalLevel (k : LinkId) (level : Byte) (s : State) : Host.Outcome State Fault Refusal :=
  after (request k (.raiseLocalLevel level)) s

/-- CLEAR LOCAL LEVEL (R111), code 20. -/
def execClearLocalLevel (k : LinkId) (s : State) : Host.Outcome State Fault Refusal :=
  after (request k .clearLocalLevel) s

/-- WRITE SECTION (R123), code 21. -/
def execWriteSection (k : LinkId) (target first : Byte) (second : Half) (s : State) : Host.Outcome State Fault Refusal :=
  after (request k (.writeSection target first second)) s

/-- CONFIRM SECTIONS (R124), code 22. -/
def execConfirmSections (k : LinkId) (s : State) : Host.Outcome State Fault Refusal :=
  after (request k .confirmSections) s

/-- READ SECTIONS (R125), code 23. -/
def execReadSections (k : LinkId) (s : State) : Host.Outcome State Fault Refusal :=
  after (request k .readSections) s

/-- START HUNT (R128), code 24. -/
def execStartHunt (k : LinkId) (s : State) : Host.Outcome State Fault Refusal :=
  after (request k .startHunt) s

/-- ABORT HUNT (R149), code 25. -/
def execAbortHunt (k : LinkId) (s : State) : Host.Outcome State Fault Refusal :=
  after (request k .abortHunt) s

/-- READ HUNT ORDER (R133), code 26. -/
def execReadHuntOrder (k : LinkId) (s : State) : Host.Outcome State Fault Refusal :=
  after (request k .readHuntOrder) s

/-- REPORT SWITCH (R126), code 27. -/
def execReportSwitch (k : LinkId) (ident state : Byte) (reference : Half) (s : State) : Host.Outcome State Fault Refusal :=
  after (request k (.reportSwitch ident state reference)) s

/-- READ HUNT (R148), code 28. -/
def execReadHunt (k : LinkId) (s : State) : Host.Outcome State Fault Refusal :=
  after (request k .readHunt) s

/-- READ RECORD (R158), code 29. -/
def execReadRecord (k : LinkId) (index : Byte) (s : State) : Host.Outcome State Fault Refusal :=
  after (request k (.readRecord index)) s

/-- RESET LINK (R184), code 30. -/
def execResetLink (k : LinkId) (s : State) : Host.Outcome State Fault Refusal :=
  after (request k .resetLink) s

end Sys2Proof.Machine
end

