-- ==== Sys2Proof/Machine/Dispatch.lean ====
section
/-! DEFINITION. The meaning of each command, one arm per constructor of Instr. -/

namespace Sys2Proof.Machine

/-- The effect of a command on everything but the queue of commands. -/
def exec (i : Instr) (s : State) : Host.Outcome State Fault Refusal :=
  match i with
  | .coldStart reads => Sys2Proof.Machine.execColdStart reads s
  | .startUpComplete => Sys2Proof.Machine.execStartUpComplete s
  | .measurementFrame bytes => Sys2Proof.Machine.execMeasurementFrame bytes s
  | .missingFrameStep => Sys2Proof.Machine.execMissingFrameStep s
  | .sotfWindowExpiry => Sys2Proof.Machine.execSotfWindowExpiry s
  | .coldLoadWindowExpiry => Sys2Proof.Machine.execColdLoadWindowExpiry s
  | .quietEnd => Sys2Proof.Machine.execQuietEnd s
  | .huntTestWindowEnd => Sys2Proof.Machine.execHuntTestWindowEnd s
  | .contactChange openMade closedMade => Sys2Proof.Machine.execContactChange openMade closedMade s
  | .travelTimerExpiry => Sys2Proof.Machine.execTravelTimerExpiry s
  | .discrepancyTimerExpiry => Sys2Proof.Machine.execDiscrepancyTimerExpiry s
  | .energyReadyChange high => Sys2Proof.Machine.execEnergyReadyChange high s
  | .tripOrderTimeout => Sys2Proof.Machine.execTripOrderTimeout s
  | .closeOrderTimeout => Sys2Proof.Machine.execCloseOrderTimeout s
  | .deadTimeExpiry => Sys2Proof.Machine.execDeadTimeExpiry s
  | .closeWaitExpiry => Sys2Proof.Machine.execCloseWaitExpiry s
  | .reclaimExpiry => Sys2Proof.Machine.execReclaimExpiry s
  | .blockExpiry owner reason => Sys2Proof.Machine.execBlockExpiry owner reason s
  | .declarationExpiry => Sys2Proof.Machine.execDeclarationExpiry s
  | .silenceTimerExpiry => Sys2Proof.Machine.execSilenceTimerExpiry s
  | .orderTimerExpiry => Sys2Proof.Machine.execOrderTimerExpiry s
  | .huntCloseWaitExpiry => Sys2Proof.Machine.execHuntCloseWaitExpiry s
  | .holdoffExpiry m => Sys2Proof.Machine.execHoldoffExpiry m s
  | .badLengthByte k byte => Sys2Proof.Machine.execBadLengthByte k byte s
  | .gapTimerExpiry k => Sys2Proof.Machine.execGapTimerExpiry k s
  | .quietTimerExpiry k => Sys2Proof.Machine.execQuietTimerExpiry k s
  | .requestFrame k byte => Sys2Proof.Machine.execRequestFrame k byte s
  | .answerSent k => Sys2Proof.Machine.execAnswerSent k s
  | .storeWriteComplete => Sys2Proof.Machine.execStoreWriteComplete s
  | .status k => Sys2Proof.Machine.execStatus k s
  | .readMeasurements k => Sys2Proof.Machine.execReadMeasurements k s
  | .clearQuality k => Sys2Proof.Machine.execClearQuality k s
  | .readNotice k => Sys2Proof.Machine.execReadNotice k s
  | .setNoticeMask k mask => Sys2Proof.Machine.execSetNoticeMask k mask s
  | .setHoldoff k ms => Sys2Proof.Machine.execSetHoldoff k ms s
  | .trip k => Sys2Proof.Machine.execTrip k s
  | .close k => Sys2Proof.Machine.execClose k s
  | .resetMechanism k => Sys2Proof.Machine.execResetMechanism k s
  | .placeBlock k kind reason expiry => Sys2Proof.Machine.execPlaceBlock k kind reason expiry s
  | .removeBlock k kind owner reason => Sys2Proof.Machine.execRemoveBlock k kind owner reason s
  | .readBlocks k => Sys2Proof.Machine.execReadBlocks k s
  | .readSetting k target field => Sys2Proof.Machine.execReadSetting k target field s
  | .writeSetting k target field value => Sys2Proof.Machine.execWriteSetting k target field value s
  | .confirmGroup k group => Sys2Proof.Machine.execConfirmGroup k group s
  | .readGroupState k => Sys2Proof.Machine.execReadGroupState k s
  | .setSeason k season => Sys2Proof.Machine.execSetSeason k season s
  | .declareFireLevel k level hours => Sys2Proof.Machine.execDeclareFireLevel k level hours s
  | .raiseLocalLevel k level => Sys2Proof.Machine.execRaiseLocalLevel k level s
  | .clearLocalLevel k => Sys2Proof.Machine.execClearLocalLevel k s
  | .writeSection k target first second => Sys2Proof.Machine.execWriteSection k target first second s
  | .confirmSections k => Sys2Proof.Machine.execConfirmSections k s
  | .readSections k => Sys2Proof.Machine.execReadSections k s
  | .startHunt k => Sys2Proof.Machine.execStartHunt k s
  | .abortHunt k => Sys2Proof.Machine.execAbortHunt k s
  | .readHuntOrder k => Sys2Proof.Machine.execReadHuntOrder k s
  | .reportSwitch k ident state reference => Sys2Proof.Machine.execReportSwitch k ident state reference s
  | .readHunt k => Sys2Proof.Machine.execReadHunt k s
  | .readRecord k index => Sys2Proof.Machine.execReadRecord k index s
  | .resetLink k => Sys2Proof.Machine.execResetLink k s
  | .linkByteReceived k byte => Sys2Proof.Machine.execLinkByteReceived k byte s

end Sys2Proof.Machine
end

