-- ==== Sys2Proof/Machine/Clock.lean ====
section
/-! DEFINITION. What time brings while no command waits (DESIGN CHOICE, log entry 2): the running timers with the commands that are their
expiries, and which of them is due. -/

namespace Sys2Proof.Machine

/-- A command that is due at a moment of the clock. -/
structure Deadline where
  moment : Nat
  command : Instr
deriving DecidableEq, Repr

/-- The deadline of a timer, if it runs. -/
def deadline (t : Option Nat) (i : Instr) : List Deadline :=
  match t with
  | some moment => [⟨moment, i⟩]
  | none => []

/-- The deadlines of a link's timers (R176). -/
def linkDeadlines (k : LinkId) (l : Link) : List Deadline :=
  deadline l.gapTimer (.gapTimerExpiry k) ++ deadline l.quietTimer (.quietTimerExpiry k)

/-- The deadline of a block entry (R88). -/
def BlockEntry.deadlines (e : BlockEntry) : List Deadline :=
  match e.kind, e.owner with
  | .operator, .master m => deadline (e.moment.map (· * 1000)) (.blockExpiry m e.reason)
  | _, _ => []

/-- The deadlines of the breaker's orders (R48, R50). -/
def Mechanism.deadlines (m : Mechanism) : List Deadline :=
  deadline (m.timerOf .trip) .tripOrderTimeout ++ deadline (m.timerOf .close) .closeOrderTimeout
    ++ deadline m.travelTimer .travelTimerExpiry ++ deadline m.discrepancyTimer .discrepancyTimerExpiry

/-- Every deadline that runs. A write completes at the latest 40 ms after its beginning (R194, DESIGN CHOICE, log entry 19). -/
def Part.deadlines (p : Part) : List Deadline :=
  p.mech.deadlines ++ deadline p.intake.frameDue .missingFrameStep ++ deadline p.seq.deadTimer .deadTimeExpiry
    ++ deadline p.seq.closeWaitTimer .closeWaitExpiry ++ deadline p.seq.reclaimTimer .reclaimExpiry
    ++ p.entries.flatMap BlockEntry.deadlines
    ++ deadline (p.posture.declaredExpiry.map (· * 1000)) .declarationExpiry
    ++ deadline p.posture.silenceTimer .silenceTimerExpiry
    ++ deadline p.hunt.orderTimer .orderTimerExpiry ++ deadline p.hunt.closeWaitTimer .huntCloseWaitExpiry
    ++ deadline p.notices.bay.holdoffTimer (.holdoffExpiry .bay)
    ++ deadline p.notices.control.holdoffTimer (.holdoffExpiry .control)
    ++ deadline p.notices.crew.holdoffTimer (.holdoffExpiry .crew)
    ++ linkDeadlines .link1 p.links.link1 ++ linkDeadlines .link2 p.links.link2 ++ linkDeadlines .link3 p.links.link3
    ++ deadline p.store.writeTimer .storeWriteComplete

/-- The earliest of some deadlines, the first of the list among equals. -/
def earliest : List Deadline → Option Deadline
  | [] => none
  | d :: rest =>
    match earliest rest with
    | none => some d
    | some e => if d.moment ≤ e.moment then some d else some e

/-- The deadline that the clock has reached, if any: the earliest. -/
def Part.due (p : Part) : Option Deadline := earliest (p.deadlines.filter fun d => d.moment ≤ p.clock)

/-- One millisecond passes. -/
def passTime (p : Part) : Part := { p with clock := p.clock + 1 }

/-- What happens while no command waits: nothing before start-up is complete; else the earliest expiry that is due, or one
millisecond passes. -/
def idle (s : State) : Host.Outcome State Fault Refusal :=
  if !s.started then .next s
  else
    match s.toPart.due with
    | some d => exec d.command s
    | none => .next { s with toPart := passTime s.toPart }

end Sys2Proof.Machine
end

