-- ==== Sys2Proof/Safety.lean ====
section
/-! DEFINITION. What counts as a safe part, in the terms the statements use: the invariants that every step keeps, the
words in which a statement speaks of a request on a link, and what becomes of a hunt: its abandonment and its next step. -/

namespace Sys2Proof.Machine

/-! ## Invariants -/

/-- The outputs follow the one order in progress, and no close output stands beside a HOT_LINE block (R46). -/
structure OutputsSafe (p : Part) : Prop where
  tripOnly : p.mech.tripOutput = true ↔ p.mech.order = .trip
  closeOnly : p.mech.closeOutput = true ↔ p.mech.order = .close
  hotLine : p.mech.closeOutput = true → p.hasBlock .hotLine = false

/-- The loss counter, the measurement state and the MEASURE block agree (R11, R12, R14). -/
structure MeasureSafe (p : Part) : Prop where
  bounded : p.intake.loss ≤ 32
  good : p.intake.state = .good → p.intake.loss < 32
  lost : p.intake.state = .lost → 0 < p.intake.loss
  block : p.hasBlock .measure = true ↔ p.intake.state = .lost

/-- Each master's line is asserted exactly while a kind is eligible for it and its holdoff timer does not run, on a part
that has started and has a link of its role (R164, R173, R175). -/
def LinesTrue (p : Part) : Prop := ∀ m : Master, (p.notices.get m).line = (p.notices.get m).lineLevel (p.showsLine m)

/-- The counts of Elements lie within their ranges (the table of 02; R20, R23, R25, R26, R28, R29). -/
structure CountsBounded (e : Elements) : Prop where
  accA : e.acc.a ≤ 1000000
  accB : e.acc.b ≤ 1000000
  accC : e.acc.c ≤ 1000000
  accN : e.acc.n ≤ 1000000
  highsetA : e.highset.a ≤ 50
  highsetB : e.highset.b ≤ 50
  highsetC : e.highset.c ≤ 50
  sef : e.sef ≤ 6000
  openCount : e.openCount ≤ 360000

/-- The effective level, the wanted group and the active settings are those that the inputs and the groups give (R114,
R116). -/
def SelectionStands (q : Posture) : Prop := q.select = q

/-! ## Requests -/

/-- The command that is a request's arrival on a link. -/
def Request.command (k : LinkId) : Request → Instr
  | .status => .status k
  | .readMeasurements => .readMeasurements k
  | .clearQuality => .clearQuality k
  | .readNotice => .readNotice k
  | .setNoticeMask mask => .setNoticeMask k mask
  | .setHoldoff ms => .setHoldoff k ms
  | .trip => .trip k
  | .close => .close k
  | .resetMechanism => .resetMechanism k
  | .placeBlock kind reason expiry => .placeBlock k kind reason expiry
  | .removeBlock kind owner reason => .removeBlock k kind owner reason
  | .readBlocks => .readBlocks k
  | .readSetting target field => .readSetting k target field
  | .writeSetting target field value => .writeSetting k target field value
  | .confirmGroup group => .confirmGroup k group
  | .readGroupState => .readGroupState k
  | .setSeason season => .setSeason k season
  | .declareFireLevel level hours => .declareFireLevel k level hours
  | .raiseLocalLevel level => .raiseLocalLevel k level
  | .clearLocalLevel => .clearLocalLevel k
  | .writeSection target first second => .writeSection k target first second
  | .confirmSections => .confirmSections k
  | .readSections => .readSections k
  | .startHunt => .startHunt k
  | .abortHunt => .abortHunt k
  | .readHuntOrder => .readHuntOrder k
  | .reportSwitch ident state reference => .reportSwitch k ident state reference
  | .readHunt => .readHunt k
  | .readRecord index => .readRecord k index
  | .resetLink => .resetLink k

/-- A part in service whose link k has the role of master m (R175, R185). -/
structure Part.inService (p : Part) (k : LinkId) (m : Master) : Prop where
  started : p.started = true
  role : (p.links.get k).role = .held m

/-- A part in service whose link k, of master m, is FREE (R177). -/
structure Part.serves (p : Part) (k : LinkId) (m : Master) : Prop extends p.inService k m where
  free : (p.links.get k).busy = false

/-- The state in which the owner of a request finds the part (R178, items 1 to 3): the frame is found well-formed. -/
def Part.found (p : Part) (k : LinkId) (m : Master) (r : Request) : Part := wellFormed k m r.frame p

/-- The state after a command: the part q, with the queue as it was. -/
def State.withPart (s : State) (q : Part) : State := { s with toPart := q }

/-- A part with a request answered on link k (R182). -/
def Part.answer (p : Part) (k : LinkId) (r : Request) (reply : Reply) : Part := giveAnswer k r reply p

/-- A kind of notice pending for a master (R162). -/
def Part.pendingFor (p : Part) (m : Master) (k : NoticeKind) : Bool := holdsKind (p.notices.get m).latched k

/-! ## What becomes of a hunt -/

/-- A hunt abandoned with a reason and its detail: nothing outstanding, no close due and the result written (R146, items 1 and
2; R148), with hand-back pending or not (R146, items 5 to 7). -/
def Hunt.abandonedBy (h : Hunt) (reason : HuntReason) (detail : Option HuntDetail) (pending : Bool) : Hunt :=
  { h with
    outstanding := none, orderTimer := none, closeWaitTimer := none, closeDue := .none, state := .abandoned
    handBackPending := pending
    result := some
      { outcome := .abandoned, reason := reason, detail := detail, startedBy := h.startedBy, lo := h.lo, hi := h.hi
        testsUsed := h.testsUsed, testLimit := h.testLimit.getD 0, ordersIssued := h.ordersIssued
        unusable := h.unusable } }

/-- A hunt concluded by restoration (R144, items 1 and 2; R148). -/
def Hunt.concludedBy (h : Hunt) : Hunt :=
  { h with
    state := .concluded
    result := some
      { outcome := if h.lo = h.hi then .concludedSection else .concludedRange, reason := h.restoreReason, detail := none
        startedBy := h.startedBy, lo := h.lo, hi := h.hi, testsUsed := h.testsUsed, testLimit := h.testLimit.getD 0
        ordersIssued := h.ordersIssued, unusable := h.unusable } }

/-- The Sequencer with its timers stopped and its sequence ended, in a state of rest (R60, R71, R74, R76). -/
def Sequencer.rests (q : Sequencer) (state : SeqState) : Sequencer :=
  { q with
    state := state, deadTimer := none, closeWaitTimer := none, reclaimTimer := none, pendingShot := none, purpose := .none
    forced := none }

/-- The Sequencer as it takes the breaker back in LOCKOUT (R60, R76). -/
def Sequencer.lockedOut (q : Sequencer) (reason : LockoutReason) : Sequencer :=
  { q.rests .lockout with lockoutReason := some reason }

/-- The list without the HUNT block (R87). -/
def Part.entriesLeft (p : Part) : List BlockEntry := p.entries.filter fun e => e.kind ≠ .hunt

/-- Kinds pending for every master in q, with every notice that was pending in p (R163). -/
def RaisedSince (p q : Part) (kinds : List NoticeKind) : Prop :=
  (∀ k ∈ kinds, ∀ m : Master, q.pendingFor m k = true) ∧
    ∀ (m : Master) (k : NoticeKind), p.pendingFor m k = true → q.pendingFor m k = true

/-- A hunt runs, the Sequencer is in HUNT_HELD, and no close order in progress is another's than the Hunt's (R75). -/
structure Part.heldByHunt (p : Part) : Prop where
  running : p.hunt.state.running = true
  held : p.seq.state = .huntHeld
  sound : p.seq.failureNoted = false
  own : p.mech.order = .close → p.mech.placer = some .hunt

/-- The record of a trip of the Hunt's, placed in the part p (R143, R152). -/
structure HuntRecord (p : Part) (causes : Causes) (requester : Option Master) (f : FaultRecord) : Prop where
  number : f.number = p.records.next
  origin : f.origin = .hunt
  causes : f.causes = causes
  requester : f.requester = requester
  lanes : f.highsetLanes = ⟨false, false, false⟩ ∧ f.sotfLanes = ⟨false, false, false, false⟩
  shot : f.shot = 0
  active : f.active = p.posture.active ∧ f.level = p.posture.level

/-- A running hunt of p abandoned into q, for any reason but MECHANISM (R145, R146): by the position, and by the order in
progress. -/
structure HuntAbandoned (reason : HuntReason) (detail : Option HuntDetail) (causes : Causes) (requester : Option Master)
    (p q : Part) : Prop where
  /-- With the breaker OPEN it is handed back in LOCKOUT at once (item 6). -/
  handedBack : p.position = .opened → p.mech.order ≠ .close →
    q =
      { p with
        hunt := p.hunt.abandonedBy reason detail p.hunt.handBackPending
        entries := p.entriesLeft
        elements := { p.elements with mode := .normal }
        seq := p.seq.lockedOut .huntEnd
        notices := q.notices } ∧
      RaisedSince p q [.huntEnd, .lockout]
  /-- With the Hunt's close in progress and the breaker still OPEN, its trip ends the close and is itself OPENED at once
  (item 7; R47, R147). -/
  pulled : p.position = .opened → p.mech.order = .close →
    q =
      { p with
        hunt := p.hunt.abandonedBy reason detail false
        entries := p.entriesLeft
        mech :=
          { p.mech with order := .none, placer := none, orderTimer := none, tripOutput := false, closeOutput := false }
        elements := { p.elements with episode := none, closeKind := .none, mode := .normal }
        records := q.records
        seq := p.seq.lockedOut .huntEnd
        notices := q.notices } ∧
      (∃ f : FaultRecord, HuntRecord p causes requester f ∧ f.outcome = .pending ∧
        q.records =
          { ring :=
              ((f :: p.records.ring).take 16).map fun r =>
                if r.number = f.number then { r with outcome := .opened } else r
            next := nextNumber p.records.next, pendingRecord := none }) ∧
      RaisedSince p q [.huntEnd, .trip, .record, .lockout]
  /-- With the breaker not OPEN the Hunt's trip is placed, and the hand-back waits on it (item 7). -/
  tripped : p.position ≠ .opened → p.mech.order ≠ .trip →
    q =
      { p with
        hunt := p.hunt.abandonedBy reason detail true
        entries := p.entriesLeft
        mech :=
          { p.mech with
            order := .trip, placer := some .hunt, orderTimer := some (p.clock + 200), tripOutput := true
            closeOutput := decide (p.mech.order ≠ .close) && p.mech.closeOutput, travelTimer := none }
        elements :=
          { p.elements with
            episode := none
            closeKind := if p.mech.order = .close then .none else p.elements.closeKind
            mode := if p.mech.order = .close then .normal else p.elements.mode }
        records := q.records
        notices := q.notices } ∧
      (∃ f : FaultRecord, HuntRecord p causes requester f ∧ f.outcome = .pending ∧
        q.records =
          { ring := (f :: p.records.ring).take 16, next := nextNumber p.records.next
            pendingRecord := some p.records.next }) ∧
      RaisedSince p q [.huntEnd, .trip, .record]
  /-- A trip in progress serves (R147). -/
  waits : p.position ≠ .opened → p.mech.order = .trip →
    q =
      { p with
        hunt := p.hunt.abandonedBy reason detail true
        entries := p.entriesLeft
        notices := q.notices } ∧
      RaisedSince p q [.huntEnd]
  /-- BLOCKS is raised as the HUNT block leaves the list (R87). -/
  blocks : p.hasBlock .hunt = true → ∀ m : Master, q.pendingFor m .blocks = true

/-- Elements as they are told OPEN, with no close order in progress (R18). -/
def Elements.cleared : Elements :=
  { acc := ⟨0, 0, 0, 0⟩, highset := ⟨0, 0, 0⟩, sef := 0, mask := ⟨false, false, false, false⟩, sefPicked := false
    episode := none, sotf := none, coldLoad := none, closeKind := .none, mode := .normal, openCount := 0 }

/-- The cold-load window after a close that may start it, under the active settings (R20, R29). -/
def Part.coldLoadAfterClose (p : Part) : Option Nat :=
  if p.settings.coldLoadThreshold.getD 0 * 100 ≤ p.elements.openCount ∧ 100 < p.settings.coldLoadMultiplier.getD 0 then
    some (p.settings.coldLoadDuration.getD 0 * 100)
  else p.elements.coldLoad

/-- A MECHANISM placement in a part p that the Hunt holds, its hunt left as h: the breaker is handed back in FAILED, no order is
touched and none is placed (R75, R76, R85, R146 item 5, R147). -/
def HandedToFailure (h : Hunt) (p q : Part) : Prop :=
  q =
    { p with
      hunt := h
      entries := p.entriesLeft ++ [⟨.mechanism, .part, 0, p.uptime, none, none, none⟩]
      elements := { p.elements with mode := .normal }
      seq := { p.seq.rests .failed with failureNoted := true }
      notices := q.notices } ∧
    RaisedSince p q [.blocks]

/-! ## The Hunt's next step -/

/-- A close order of the Hunt's placed (R49, R33). -/
def Part.huntClosePlaced (p : Part) (kind : CloseKind) : Part :=
  { p with
    mech :=
      { p.mech with
        order := .close, placer := some .hunt, orderTimer := some (p.clock + 300), closeOutput := true
        travelTimer := none }
    elements :=
      { p.elements with closeKind := kind, mode := if kind = .huntTest then .huntTest else p.elements.mode } }

/-- The part after an accepted test close (R138). -/
def Part.testClosePlaced (p : Part) : Part :=
  { p.huntClosePlaced .huntTest with
    hunt :=
      { p.hunt with
        state := .testing, testsUsed := p.hunt.testsUsed + 1, closeDue := .none, closeWaitTimer := none
        settleCount := 0, windowCount := 0, windowSum := 0, windowUnavailable := false } }

/-- The part after an accepted close of restoration (R143); its close due is the model's reading, log entry 14. -/
def Part.restoreClosePlaced (p : Part) : Part :=
  { p.huntClosePlaced .huntRestore with hunt := { p.hunt with closeDue := .none, closeWaitTimer := none } }

/-- The reason for which Mechanism refuses a close, the first of R49's checks that fails. -/
def Part.refusesClose (p : Part) (why : Why) : Prop :=
  if p.mech.order ≠ .none then why = .orderInProgress
  else if p.position ≠ .opened then why = .notOpen
  else if p.mech.energyHigh = false then why = .energyLow
  else if p.hasBlock .hotLine = true then why = .hotLine
  else if p.hasBlock .mechanism = true then why = .mechanismBlocked
  else False

/-- The close due in p is placed into q, or refused and the hunt abandoned with CLOSE_REFUSED and the refusal (R137, R138,
R143). -/
structure DueClosePlaced (due : CloseDue) (p q : Part) : Prop where
  accepted : (∀ why : Why, ¬p.refusesClose why) →
    q = if due = .test then p.testClosePlaced else p.restoreClosePlaced
  refused : ∀ why : Why, p.refusesClose why →
    HuntAbandoned .closeRefused (some (.refusal why)) {} none
      { p with elements := { p.elements with closeKind := .none, mode := .normal } } q

/-- A close becomes due in p (R137): it is placed at once, or waits for up to 10 s. -/
structure CloseDueTaken (due : CloseDue) (p q : Part) : Prop where
  ready : p.mech.energyHigh = true → (due = .test → p.intake.sourceLive = true) →
    DueClosePlaced due { p with hunt := { p.hunt with closeDue := due } } q
  waits : (p.mech.energyHigh = false ∨ (due = .test ∧ p.intake.sourceLive = false)) →
    q = { p with hunt := { p.hunt with closeDue := due, closeWaitTimer := some (p.clock + 10000) } }

/-- A switch order due in p, with the breaker OPEN, is issued into q, or cannot be and the hunt is abandoned (R132). -/
structure OrderTaken (j : Nat) (action : SwitchAction) (p q : Part) : Prop where
  issued : (p.table.switch j).operable = true →
    q =
      raise .huntOrder
        { p with
          hunt :=
            { p.hunt with
              outstanding := some ⟨p.hunt.nextOrder, j, (p.table.switch j).ident.getD 0, action⟩
              nextOrder := p.hunt.nextOrder + 1, ordersIssued := min (p.hunt.ordersIssued + 1) 255
              orderTimer := some (p.clock + p.table.timeout.getD 0 * 1000) } }
  notOperable : (p.table.switch j).operable = false → HuntAbandoned .switchNotOperable none {} none p q

/-- Every position from 1 below m is believed CLOSED. -/
def Part.closedBelow (p : Part) (m : Nat) : Prop := ∀ i : Nat, 1 ≤ i → i < m → p.believed i = .closed

/-- The next order of the configuration of probe m, or its test close (R132). -/
structure ProbeDerived (m : Nat) (p q : Part) : Prop where
  closes : ∀ j : Nat, 1 ≤ j → j < m → p.closedBelow j → p.believed j ≠ .closed → OrderTaken j .closeSwitch p q
  opens : p.closedBelow m → p.believed m ≠ .opened → OrderTaken m .openSwitch p q
  met : p.closedBelow m → p.believed m = .opened → CloseDueTaken .test p q

/-- The next step of restoration (R142), or the conclusion in LOCKOUT with lo at 0 (R144). -/
structure RestorationStepped (p q : Part) : Prop where
  concludes : p.hunt.lo = 0 →
    q =
      { p with
        hunt := p.hunt.concludedBy
        entries := p.entriesLeft
        elements := { p.elements with mode := .normal }
        seq := p.seq.lockedOut .huntEnd
        notices := q.notices } ∧
      RaisedSince p q [.huntEnd, .lockout] ∧
      (p.hasBlock .hunt = true → ∀ m : Master, q.pendingFor m .blocks = true)
  isolates : p.hunt.lo ≠ 0 → p.believed p.hunt.lo ≠ .opened → OrderTaken p.hunt.lo .openSwitch p q
  restores : ∀ j : Nat, p.believed p.hunt.lo = .opened → 1 ≤ j → j < p.hunt.lo → p.closedBelow j →
    p.believed j ≠ .closed → OrderTaken j .closeSwitch p q
  met : p.hunt.lo ≠ 0 → p.believed p.hunt.lo = .opened → p.closedBelow p.hunt.lo → CloseDueTaken .restore p q

/-- Restoration entered in p with a reason (R142). -/
def RestorationEntered (reason : HuntReason) (p q : Part) : Prop :=
  RestorationStepped { p with hunt := { p.hunt with state := .restoring, probe := none, restoreReason := reason } } q

/-- A switch that a probe may open (R131, item 3). -/
def Part.mayProbe (p : Part) (m : Nat) : Prop :=
  p.hunt.lo < m ∧ m ≤ p.hunt.hi ∧ (p.table.switch m).operable = true ∧ hasPosition p.hunt.unusable m = false

/-- The next step planned in p (R131). -/
structure Planned (p q : Part) : Prop where
  found : p.hunt.lo = p.hunt.hi → RestorationEntered .sectionFound p q
  limit : p.hunt.lo ≠ p.hunt.hi → some p.hunt.testsUsed = p.hunt.testLimit → RestorationEntered .limitReached p q
  none : p.hunt.lo ≠ p.hunt.hi → some p.hunt.testsUsed ≠ p.hunt.testLimit → (∀ m : Nat, ¬p.mayProbe m) →
    RestorationEntered .noCandidate p q
  probe : ∀ m : Nat, p.hunt.lo ≠ p.hunt.hi → some p.hunt.testsUsed ≠ p.hunt.testLimit → p.mayProbe m →
    (∀ j : Nat, p.mayProbe j →
      probeScore p.hunt.lo p.hunt.hi m < probeScore p.hunt.lo p.hunt.hi j ∨
        (probeScore p.hunt.lo p.hunt.hi m = probeScore p.hunt.lo p.hunt.hi j ∧ m ≤ j)) →
    ProbeDerived m { p with hunt := { p.hunt with probe := some m, doubtfulSeen := false, state := .ordering } } q

end Sys2Proof.Machine
end

