-- ==== Sys2Proof/Certificates/Slice0/Obligations.lean ====
section
/-! DEFINITION. The statements for the provers. A statement about a request speaks of the part as its owner finds it,
`found` (R178: the frame has been counted, the link is BUSY, CONTROL has been heard); `FramesMoveHealth` says what
that is. An equation for the next state is its frame as well: what it does not name is unchanged. -/

section
open Sys2Proof Sys2Proof.Machine

/-! ## The queue and the clock -/

/-- With a command waiting, a step is that command's meaning on the state with the queue's rest. -/
def Obligations.StepTakesFrontOfQueue : Prop :=
  ∀ (c : Instr) (rest : List Instr) (s : State), s.pending = c :: rest → step s = exec c { s with pending := rest }

/-- With no command waiting: nothing happens before start-up is complete; else the earliest expiry that the clock has
reached is taken, and with none a millisecond passes. The model's choice, log entry 2. -/
def Obligations.IdleStepTakesEarliestExpiry : Prop :=
  ∀ s : State, s.pending = [] →
    (s.started = false → step s = .next s) ∧
    (s.started = true → (∀ d ∈ s.toPart.deadlines, s.clock < d.moment) →
      step s = .next (s.withPart { s.toPart with clock := s.clock + 1 })) ∧
    (s.started = true → ∀ d ∈ s.toPart.deadlines, d.moment ≤ s.clock →
      ∃ e ∈ s.toPart.deadlines, e.moment ≤ d.moment ∧ step s = exec e.command s)

/-- No command stops the part, and none touches the commands that wait behind it. -/
def Obligations.EveryCommandAnswersNext : Prop :=
  ∀ (c : Instr) (s : State), ∃ t : State, exec c s = .next t ∧ t.pending = s.pending

/-! ## Requests and links -/

/-- Reading the frame of a request gives that request, and only its own frame reads as it (R178, R187). -/
def Obligations.RequestFramesRoundTrip : Prop :=
  (∀ r : Request, readRequest r.frame = some r) ∧
  (∀ (frame : List Byte) (r : Request), readRequest frame = some r → frame = r.frame)

/-- A request that arrives on a FREE link, and that the role may make, is taken by its owner and answered (R177, R178). -/
def Obligations.RequestTakenByFreeLink : Prop :=
  ∀ (k : LinkId) (m : Master) (r : Request) (s : State), s.toPart.serves k m → mayRequest m r = true →
    exec (r.command k) s =
      .next (s.withPart ((ownerTakes k m r (s.toPart.found k m r)).1.answer k r
        (ownerTakes k m r (s.toPart.found k m r)).2))

/-- The requests of the request table that a role may not make, by their codes, are answered NO_RIGHT, and nothing
changes beyond what taking the frame has changed (R181). -/
def Obligations.RequestWithoutRightRefused : Prop :=
  ∀ (k : LinkId) (m : Master) (r : Request) (s : State), s.toPart.serves k m →
    ((m = .crew ∧ r.code ∈ [3, 8, 9, 14, 15, 17, 24]) ∨ (m ≠ .control ∧ r.code ∈ [18, 21, 22, 27]) ∨
      (m ≠ .bay ∧ r.code ∈ [19, 20])) →
    exec (r.command k) s = .next (s.withPart ((s.toPart.found k m r).answer k r ⟨.noRight, [], false⟩))

/-- A request on a BUSY link is held in the waiting place, or is an overrun; a DISABLED link and a part that has not
started take none (R175, R177, R185). -/
def Obligations.RequestNotTakenAtOnce : Prop :=
  ∀ (k : LinkId) (r : Request) (s : State),
    ((s.started = false ∨ (s.links.get k).role = .disabled) → exec (r.command k) s = .next s) ∧
    (∀ m : Master, s.toPart.inService k m → (s.links.get k).busy = true →
      ((s.links.get k).waiting = none →
        exec (r.command k) s = .next (s.withPart (setLink k { s.links.get k with waiting := some r.frame } s.toPart))) ∧
      (∀ frame : List Byte, (s.links.get k).waiting = some frame →
        exec (r.command k) s = .next (s.withPart (countBad k s.toPart))))

/-- The counts of a link's frames. A malformed frame or an overrun raises the health counter by one up to 32; at 32 an OK
link becomes FAULTY, and LINK_FAULT reaches the masters of the other two roles (R161, R179). A well-formed frame makes the
link BUSY with it and its health one lower; from CONTROL it restarts the silence timer and makes CONTROL HEARD (R180, R112);
from LOCAL and CREW, on a link whose state stays as it is, it does nothing else. -/
def Obligations.FramesMoveHealth : Prop :=
  ∀ (k : LinkId) (m : Master) (p : Part), (p.links.get k).role = .held m →
    let l := p.links.get k
    (let q := countBad k p;
      q = { p with links := q.links, notices := q.notices } ∧
      q.links.get k = { l with health := min (l.health + 1) 32, faulty := l.faulty || 32 ≤ l.health + 1 } ∧
      (∀ j : LinkId, j ≠ k → q.links.get j = p.links.get j) ∧
      (l.faulty = true ∨ l.health + 1 < 32 → q.notices = p.notices) ∧
      (l.faulty = false → 32 ≤ l.health + 1 →
        ∀ (x : Master) (n : NoticeKind),
          q.pendingFor x n = (p.pendingFor x n || (decide (n = .linkFault) && decide (x ≠ m))))) ∧
    (∀ r : Request,
      let q := p.found k m r
      q.links.get k =
        { l with busy := true, inHand := some r.frame, health := l.health - 1, faulty := l.faulty && 1 < l.health } ∧
      (m = .control → q.posture.silent = false ∧
        q.posture.silenceTimer = some (p.clock + p.posture.silenceMinutes * 60000)) ∧
      (m ≠ .control → (l.faulty = false ∨ 1 < l.health) →
        q = setLink k { l with busy := true, inHand := some r.frame, health := l.health - 1 } p))

/-- The end of an answer frees the link, and a waiting request is then taken as if it had just arrived (R177). -/
def Obligations.AnswerSentFreesLink : Prop :=
  ∀ (k : LinkId) (m : Master) (a : Answer) (s : State), s.toPart.inService k m → (s.links.get k).answer = some a →
    a.held = false →
    let freed := s.withPart
      (setLink k { s.links.get k with busy := false, inHand := none, answer := none, waiting := none } s.toPart)
    ((s.links.get k).waiting = none → exec (.answerSent k) s = .next freed) ∧
    (∀ r : Request, (s.links.get k).waiting = some r.frame → exec (.answerSent k) s = exec (r.command k) freed)

/-- A byte received, by the receive state (R176): it restarts the quiet wait, begins a frame, joins the frame, or, as a
length byte of 0 or above 40, is counted as a malformed frame and makes the link wait for quiet. -/
def Obligations.LinkByteReceived : Prop :=
  ∀ (k : LinkId) (m : Master) (b : Byte) (s : State), s.toPart.inService k m →
    let l := s.links.get k
    (l.receive = .quietWait →
      exec (.linkByteReceived k b) s = .next (s.withPart (setLink k { l with quietTimer := some (s.clock + 5) } s.toPart))) ∧
    (l.receive = .idle → 1 ≤ b.toNat → b.toNat ≤ 40 →
      exec (.linkByteReceived k b) s =
        .next (s.withPart (setLink k
          { l with receive := .inFrame, length := b.toNat, bytes := [], gapTimer := some (s.clock + 5) } s.toPart))) ∧
    (l.receive = .inFrame → l.bytes.length + 1 < l.length →
      exec (.linkByteReceived k b) s =
        .next (s.withPart (setLink k { l with bytes := l.bytes ++ [b], gapTimer := some (s.clock + 5) } s.toPart))) ∧
    (l.receive = .idle → (b = 0 ∨ 40 < b.toNat) →
      exec (.badLengthByte k b) s =
        .next (s.withPart (countBad k
          (setLink k { l with receive := .quietWait, quietTimer := some (s.clock + 5) } s.toPart))))

/-- The byte that completes a frame ends the frame in progress (R176). A request's frame arrives as that request: a FREE
link's owner takes it and it is answered, NO_RIGHT without the right (R178, R181). A frame of an unknown code, or of another
length than its code's, is malformed: a FREE link counts it and gives no answer (R178, R179). A BUSY link holds a frame in
its empty waiting place, and counts one more as an overrun (R177). -/
def Obligations.CompletedFrameArrives : Prop :=
  ∀ (k : LinkId) (m : Master) (b : Byte) (s : State), s.toPart.inService k m →
    (s.links.get k).receive = .inFrame → (s.links.get k).length = (s.links.get k).bytes.length + 1 →
    let frame := (s.links.get k).bytes ++ [b]
    let idle := { s.links.get k with receive := .idle, length := 0, bytes := [], gapTimer := none }
    let ended := setLink k idle s.toPart
    (∀ r : Request, frame = r.frame →
      exec (.requestFrame k b) s = exec (r.command k) (s.withPart ended) ∧
      ((s.links.get k).busy = false → mayRequest m r = true →
        exec (.requestFrame k b) s =
          .next (s.withPart ((ownerTakes k m r (ended.found k m r)).1.answer k r
            (ownerTakes k m r (ended.found k m r)).2))) ∧
      ((s.links.get k).busy = false → mayRequest m r = false →
        exec (.requestFrame k b) s = .next (s.withPart ((ended.found k m r).answer k r ⟨.noRight, [], false⟩)))) ∧
    ((∀ r : Request, frame.head? = some (byte r.code) → frame.length ≠ r.frame.length) → (s.links.get k).busy = false →
      exec (.requestFrame k b) s = .next (s.withPart (countBad k ended))) ∧
    ((s.links.get k).busy = true → (s.links.get k).waiting = none →
      exec (.requestFrame k b) s = .next (s.withPart (setLink k { idle with waiting := some frame } s.toPart))) ∧
    (∀ held : List Byte, (s.links.get k).busy = true → (s.links.get k).waiting = some held →
      exec (.requestFrame k b) s = .next (s.withPart (countBad k ended)))

/-- The gap timer's expiry abandons the frame in progress as malformed; the quiet timer's ends the quiet wait (R176). The
clock reaches the timer's end: the model's choice, log entry 2. -/
def Obligations.LinkTimersExpire : Prop :=
  ∀ (k : LinkId) (e : Nat) (s : State),
    ((s.links.get k).gapTimer = some e → (s.links.get k).receive = .inFrame →
      exec (.gapTimerExpiry k) s =
        .next (s.withPart (countBad k
          (setLink k { s.links.get k with receive := .idle, length := 0, bytes := [], gapTimer := none }
            { s.toPart with clock := max s.clock e })))) ∧
    ((s.links.get k).quietTimer = some e → (s.links.get k).receive = .quietWait →
      exec (.quietTimerExpiry k) s =
        .next (s.withPart (setLink k { s.links.get k with receive := .idle, quietTimer := none }
          { s.toPart with clock := max s.clock e })))

/-- RESET LINK (R174, R184): the receive side and the waiting place are emptied, the health is as new, the master's
notices are READY alone, and the other masters' latches gain LINK_FAULT if the link was FAULTY. -/
def Obligations.ResetLinkActs : Prop :=
  ∀ (k : LinkId) (m : Master) (s : State), s.toPart.serves k m →
    let p := s.toPart.found k m .resetLink
    ∃ t : State, exec (.resetLink k) s = .next t ∧ t.pending = s.pending ∧
      t.toPart = { p with links := t.links, notices := t.notices } ∧
      t.links.get k =
        { p.links.get k with
          receive := .quietWait, length := 0, bytes := [], gapTimer := none, quietTimer := some (p.clock + 5)
          waiting := none, health := 0, faulty := false, answer := some ⟨[2, 30, 0], false⟩ } ∧
      t.notices.get m =
        { latched := 4096, mask := 0, holdoff := 20, holdoffTimer := none, line := true } ∧
      (∀ (x : Master) (n : NoticeKind), x ≠ m →
        t.pendingFor x n = (p.pendingFor x n || (decide (n = .linkFault) && (p.links.get k).faulty)))

/-! ## Notices -/

/-- A raising that names no master latches its kind for its receivers, HUNT_ORDER for CONTROL alone, and changes nothing
else but the lines that are weighed (R161, R163). -/
def Obligations.RaiseLatchesReceivers : Prop :=
  ∀ (n : NoticeKind) (p : Part), n ≠ .linkFault → n ≠ .ready →
    raise n p = { p with notices := (raise n p).notices } ∧
    ∀ m : Master,
      (∀ x : NoticeKind,
        (raise n p).pendingFor m x =
          (p.pendingFor m x || (decide (x = n) && (decide (n ≠ .huntOrder) || decide (m = .control))))) ∧
      ((raise n p).notices.get m).mask = (p.notices.get m).mask ∧
      ((raise n p).notices.get m).holdoff = (p.notices.get m).holdoff ∧
      ((raise n p).notices.get m).holdoffTimer = (p.notices.get m).holdoffTimer

/-- READ NOTICE takes the eligible kind of highest priority, clears its latch, starts the holdoff and answers with the
kind, the pending set and the mask; no other master's notices change (R165, R167). -/
def Obligations.ReadNoticeTakesFirstKind : Prop :=
  ∀ (k : LinkId) (m : Master) (n : NoticeKind) (s : State), s.toPart.serves k m →
    let p := s.toPart.found k m .readNotice
    let old := p.notices.get m
    let new := { old with
      latched := old.latched &&& ~~~n.bit
      holdoffTimer := if old.holdoff = 0 then none else some (p.clock + old.holdoff) }
    holdsKind old.eligible n = true →
    (∀ x : NoticeKind, x.priority < n.priority → holdsKind old.eligible x = false) →
    exec (.readNotice k) s =
      .next (s.withPart ((setNotices m new p).answer k .readNotice
        ⟨.done, byte n.priority :: (bytes2 new.latched.toNat ++ bytes2 old.mask.toNat), false⟩))

/-- READ NOTICE with no kind eligible answers 255, the pending set and the mask, and changes nothing: no latch, no timer, no
line; and the line it leaves is released wherever lines are true (R166). -/
def Obligations.ReadNoticeWithNoneEligible : Prop :=
  ∀ (k : LinkId) (m : Master) (s : State), s.toPart.serves k m →
    let p := s.toPart.found k m .readNotice
    (p.notices.get m).eligible = 0 →
    exec (.readNotice k) s =
      .next (s.withPart (p.answer k .readNotice
        ⟨.done, 255 :: (bytes2 (p.notices.get m).latched.toNat ++ bytes2 (p.notices.get m).mask.toNat), false⟩)) ∧
    (LinesTrue p → (p.notices.get m).line = false)

/-- SET NOTICE MASK (R168): a flag beyond the thirteen kinds is out of range; else the mask set is the one given with TRIP
clear, the line is weighed, and the answer shows the mask as applied. -/
def Obligations.SetNoticeMaskApplied : Prop :=
  ∀ (k : LinkId) (m : Master) (mask : Half) (s : State), s.toPart.serves k m →
    let r : Request := .setNoticeMask mask
    let p := s.toPart.found k m r
    (8192 ≤ mask.toNat →
      exec (.setNoticeMask k mask) s = .next (s.withPart (p.answer k r ⟨.outOfRange, [], false⟩))) ∧
    (mask.toNat < 8192 → ∃ t : State, exec (.setNoticeMask k mask) s = .next t ∧
      t = s.withPart ((setNotices m { p.notices.get m with mask := (t.notices.get m).mask } p).answer k r
        ⟨.done, bytes2 (t.notices.get m).mask.toNat, false⟩) ∧
      (t.notices.get m).mask.toNat = mask.toNat - mask.toNat % 2)

/-- SET HOLDOFF (R170): the value above 1000 is clamped, the answer gives it, and the running timer, the pending set, the
mask, the line and the other masters stand; the value applies from the next READ NOTICE that returns a kind, and is 20 ms
after a cold start and after a link reset of its master. -/
def Obligations.SetHoldoffApplied : Prop :=
  (∀ (k : LinkId) (m : Master) (ms : Half) (s : State), s.toPart.serves k m →
    let p := s.toPart.found k m (.setHoldoff ms)
    exec (.setHoldoff k ms) s =
      .next (s.withPart
        ({ p with notices := p.notices.set m { p.notices.get m with holdoff := min ms.toNat 1000 } }.answer k (.setHoldoff ms)
          ⟨.done, bytes2 (min ms.toNat 1000), false⟩))) ∧
  (∀ (k : LinkId) (m : Master) (s : State), s.toPart.serves k m →
    let p := s.toPart.found k m .readNotice
    (p.notices.get m).eligible ≠ 0 → ∃ t : State, exec (.readNotice k) s = .next t ∧
      (t.notices.get m).holdoff = (p.notices.get m).holdoff ∧
      (t.notices.get m).holdoffTimer =
        if (p.notices.get m).holdoff = 0 then none else some (p.clock + (p.notices.get m).holdoff)) ∧
  (∀ (reads : ColdReads) (m : Master) (s : State),
    ∃ t : State, exec (.coldStart reads) s = .next t ∧ (t.notices.get m).holdoff = 20) ∧
  (∀ (k : LinkId) (m : Master) (s : State), s.toPart.serves k m →
    ∃ t : State, exec (.resetLink k) s = .next t ∧ (t.notices.get m).holdoff = 20)

/-- The holdoff's expiry stops the timer and weighs the line, and touches no other master (R167). The clock reaches the
timer's end: the model's choice, log entry 2. -/
def Obligations.HoldoffExpiryWeighsLine : Prop :=
  ∀ (m : Master) (e : Nat) (s : State), (s.notices.get m).holdoffTimer = some e →
    exec (.holdoffExpiry m) s =
      .next (s.withPart { s.toPart with
        clock := max s.clock e
        notices := s.notices.set m { s.notices.get m with
          holdoffTimer := none
          line := s.toPart.showsLine m && decide ((s.notices.get m).eligible ≠ 0) } })

/-- Every step keeps each attention line true to what is eligible and to the holdoff (R164). -/
def Obligations.LinesStayTrue : Prop :=
  ∀ s t : State, LinesTrue s.toPart → step s = .next t → LinesTrue t.toPart

/-- The invariants that the statements speak of hold at reset. -/
def Obligations.InvariantsHoldAtReset : Prop :=
  OutputsSafe State.reset.toPart ∧ MeasureSafe State.reset.toPart ∧ LinesTrue State.reset.toPart ∧
    CountsBounded State.reset.elements ∧ SelectionStands State.reset.posture

/-! ## Measurement Intake -/

/-- A frame of a wrong length or out of order costs the loss counter one, a repeat nothing, and none of them is a step (R1,
R2). Where the count brings a GOOD intake to 32 the intake is LOST (R11, R12): MEASURE joins the list, MEASURE_LOSS and
BLOCKS are pending, and a waiting reclose locks out BLOCKED (R67); under G2, G3 or FALLBACK with the breaker CLOSED a trip
is asked for (R13), which the Sequencer in CLOSED or RECLAIM places with the lockout MEASURE_LOSS forced (R57, R55), and
under G0 or G1, or with another position, none is. A running hunt is abandoned with MEASURE_LOST, and its trip, where one is
placed, has the cause MEASURE_LOSS (R145, R146); the Sequencer in HUNT_HELD places none. -/
def Obligations.BadFrameDiscarded : Prop :=
  ∀ (bytes : List Byte) (s : State), s.started = true →
    let repeated := bytes.length = 10 ∧ ∃ (b r : Byte) (rest : List Byte),
      bytes = b :: rest ∧ s.intake.reference = some r ∧ (b - r - 1).toNat = 255
    let bad := bytes.length ≠ 10 ∨ ∃ (b r : Byte) (rest : List Byte),
      bytes = b :: rest ∧ s.intake.reference = some r ∧ 128 ≤ (b - r - 1).toNat ∧ (b - r - 1).toNat < 255
    let counted (loss : Nat) : Intake := { s.intake with loss := loss }
    (repeated → exec (.measurementFrame bytes) s = .next s) ∧
    (bad → (s.intake.loss + 1 < 32 ∨ s.intake.state = .lost) →
      exec (.measurementFrame bytes) s =
        .next (s.withPart { s.toPart with intake := counted (min (s.intake.loss + 1) 32) })) ∧
    (bad → s.intake.state = .good → 32 ≤ s.intake.loss + 1 → s.toPart.hasBlock .measure = false →
      s.hunt.state.running = false →
      ∃ t : State, exec (.measurementFrame bytes) s = .next t ∧
        t.intake = { counted 32 with state := .lost } ∧
        t.entries = s.entries ++ [⟨.measure, .part, 0, s.toPart.uptime, none, none, none⟩] ∧
        (∀ m : Master, t.pendingFor m .measureLoss = true ∧ t.pendingFor m .blocks = true) ∧
        t.posture = s.posture ∧ t.table = s.table ∧ t.hunt = s.hunt ∧ t.links = s.links ∧ t.store = s.store ∧
        t.clock = s.clock ∧
        (s.posture.active = .group .g0 ∨ s.posture.active = .group .g1 ∨ s.toPart.position ≠ .closed →
          t.mech = s.mech ∧ t.elements = s.elements ∧ t.records = s.records ∧
          (s.seq.state ≠ .deadTime → s.seq.state ≠ .closeWait → t.seq = s.seq) ∧
          (s.seq.state = .deadTime ∨ s.seq.state = .closeWait →
            t.seq.state = .lockout ∧ t.seq.lockoutReason = some .blocked ∧
            ∀ m : Master, t.pendingFor m .lockout = true)) ∧
        (s.posture.active ≠ .group .g0 → s.posture.active ≠ .group .g1 → s.toPart.position = .closed →
          s.mech.order = .none → (s.seq.state = .closed ∨ s.seq.state = .reclaim) →
          t.mech =
            { s.mech with
              order := .trip, placer := some .sequencer, orderTimer := some (s.clock + 200), tripOutput := true
              travelTimer := none } ∧
          t.seq =
            { s.seq with
              state := .tripping, deadTimer := none, closeWaitTimer := none, reclaimTimer := none
              forced := some .measureLoss
              lastTrip := some ⟨.measureLoss, none, { measureLoss := true }, ⟨false, false, false⟩,
                ⟨false, false, false, false⟩⟩ } ∧
          t.elements = { s.elements with episode := none } ∧
          (∃ f : FaultRecord, t.records.ring = (f :: s.records.ring).take 16 ∧ f.number = s.records.next ∧
            f.origin = .measureLoss ∧ f.causes = { measureLoss := true } ∧ f.requester = none ∧
            f.shot = s.seq.shotsUsed ∧ f.outcome = .pending) ∧
          t.records.pendingRecord = some s.records.next ∧
          ∀ m : Master, t.pendingFor m .trip = true ∧ t.pendingFor m .record = true)) ∧
    (bad → s.intake.state = .good → 32 ≤ s.intake.loss + 1 → s.toPart.hasBlock .measure = false → s.toPart.heldByHunt →
      ∃ q : Part, exec (.measurementFrame bytes) s = .next (s.withPart q) ∧
        HuntAbandoned .measureLost none { measureLoss := true } none
          (raise .measureLoss (raise .blocks { s.toPart with
            intake := { counted 32 with state := .lost }
            entries := s.entries ++ [⟨.measure, .part, 0, s.toPart.uptime, none, none, none⟩] })) q)

/-- An accepted frame (R3, R10): the reference, the latest record, the frame-due timer and source-live are the frame's. Each
channel takes its class and its hold-last-value by its own reading (R5, R6): a clear valid flag holds the value for two steps
and then leaves the channel UNAVAILABLE, 65535 is CLIPPED, a magnitude below 20 is ZERO. The loss counter gains the skipped
numbers, at most 32, and then one for an ABSENT channel, nothing for a CLIPPED one, and loses one otherwise (R11); a count
that brings it to 32 makes the state LOST and one that brings it to 0 makes it GOOD (R12, R14). For a frame in sequence with
every channel valid, and with a source-live that is unchanged or that nobody waits on, the part that Elements step is stated
whole; a LOST intake whose counter falls to 0 returns to GOOD first, with MEASURE out of the list and MEASURE_LOSS pending. A
source that turns LIVE is handed on before the step (R10): with the spring charged the automatic close of CLOSE_WAIT is placed
(R62, R63), or the test close of the Hunt's close wait (R137, R138). That the pending shot is none once its close is accepted
is the model's choice, log entry 13. -/
def Obligations.FrameAccepted : Prop :=
  ∀ (b0 b1 b2 b3 b4 b5 b6 b7 b8 b9 : Byte) (s : State), s.started = true →
    let c : Instr := .measurementFrame [b0, b1, b2, b3, b4, b5, b6, b7, b8, b9]
    let readings : Quad Reading :=
      ⟨⟨b2.toNat + 256 * b3.toNat, b1.getLsbD 1⟩, ⟨b4.toNat + 256 * b5.toNat, b1.getLsbD 2⟩,
        ⟨b6.toNat + 256 * b7.toNat, b1.getLsbD 3⟩, ⟨b8.toNat + 256 * b9.toNat, b1.getLsbD 4⟩⟩
    let kept (x : Channel) : Channel :=
      match x.held with
      | some v =>
        if x.hold < 2 then ⟨some .absent, some v, x.hold + 1, true, some v⟩ else ⟨some .absent, some v, 2, false, none⟩
      | none => ⟨some .absent, none, 2, false, none⟩
    let channel (x : Channel) (r : Reading) : Channel :=
      if r.valid = false then kept x
      else if r.magnitude = 65535 then ⟨some .clipped, x.held, 0, true, some 65534⟩
      else if r.magnitude < 20 then ⟨some .zero, some 0, 0, true, some 0⟩
      else ⟨some .normal, some r.magnitude, 0, true, some r.magnitude⟩
    let channels : Quad Channel :=
      ⟨channel s.intake.channels.a readings.a, channel s.intake.channels.b readings.b,
        channel s.intake.channels.c readings.c, channel s.intake.channels.n readings.n⟩
    let full (r : Reading) : Bool := r.valid && r.magnitude = 65535
    let absent : Bool := !(readings.a.valid && readings.b.valid && readings.c.valid && readings.n.valid)
    let clipped : Bool := full readings.a || full readings.b || full readings.c || full readings.n
    let skipped : Nat :=
      match s.intake.reference with
      | some r => (b0 - r - 1).toNat
      | none => 0
    let counted : Nat := min (s.intake.loss + min skipped 32) 32
    let loss : Nat := if absent then min (counted + 1) 32 else if clipped then counted else counted - 1
    let moved : MeasureState := if counted = 32 then .lost else s.intake.state
    let state : MeasureState :=
      if absent then (if loss = 32 then .lost else moved) else if !clipped && loss = 0 then .good else moved
    let intake : Intake :=
      { s.intake with
        reference := some b0, latest := some ⟨b0, b1.getLsbD 0, readings⟩, frameDue := some (s.clock + 15)
        lastKind := some .frame, liveHold := 0, channels := channels
        clippedSeen :=
          ⟨s.intake.clippedSeen.a || full readings.a, s.intake.clippedSeen.b || full readings.b,
            s.intake.clippedSeen.c || full readings.c, s.intake.clippedSeen.n || full readings.n⟩ }
    let stepped : Intake :=
      { intake with
        sourceLive := b1.getLsbD 0, loss := if clipped then s.intake.loss else s.intake.loss - 1 }
    (skipped < 128 →
      ∃ t : State, exec c s = .next t ∧
        t.intake =
          { intake with
            sourceLive := b1.getLsbD 0, loss := loss, state := state, absentSeen := t.intake.absentSeen } ∧
        t.clock = s.clock ∧ t.links = s.links ∧ t.store = s.store ∧ t.posture = s.posture) ∧
    (skipped = 0 → absent = false →
      (b1.getLsbD 0 = s.intake.sourceLive ∨
        ((b1.getLsbD 0 = false ∨ s.seq.state ≠ .closeWait) ∧ s.hunt.closeWaitTimer = none)) →
      (s.intake.state = .good → s.intake.loss < 32 →
        exec c s = .next (s.withPart (elementsStep { s.toPart with intake := stepped }))) ∧
      (s.intake.state = .lost → s.intake.loss = 1 → clipped = false →
        ∃ q : Part, exec c s = .next (s.withPart (elementsStep q)) ∧
          q =
            { s.toPart with
              intake := { intake with sourceLive := b1.getLsbD 0, loss := 0, state := .good }
              entries := s.entries.filter (fun e => e.kind ≠ .measure)
              notices := q.notices } ∧
          (∀ m : Master, q.pendingFor m .measureLoss = true) ∧
          (s.toPart.hasBlock .measure = true → ∀ m : Master, q.pendingFor m .blocks = true))) ∧
    (skipped = 0 → absent = false → s.intake.state = .good → s.intake.loss < 32 → s.intake.sourceLive = false →
      b1.getLsbD 0 = true → s.mech.energyHigh = true → s.mech.order = .none → s.toPart.position = .opened →
      (∀ k : Nat, s.seq.state = .closeWait → s.entries = [] → s.seq.pendingShot = some k →
        k ≤ s.toPart.settings.shots.getD 0 → s.hunt.closeWaitTimer = none →
        exec c s =
          .next (s.withPart (elementsStep { s.toPart with
            intake := stepped
            mech := { s.mech with
              order := .close, placer := some .sequencer, orderTimer := some (s.clock + 300), closeOutput := true
              travelTimer := none }
            elements := { s.elements with closeKind := .automatic }
            seq := { s.seq with
              state := .closing, shotsUsed := k, pendingShot := none, purpose := .automatic, deadTimer := none
              closeWaitTimer := none } }))) ∧
      (s.toPart.heldByHunt → s.hunt.closeWaitTimer ≠ none → s.hunt.closeDue = .test →
        s.toPart.hasBlock .hotLine = false → s.toPart.hasBlock .mechanism = false →
        exec c s = .next (s.withPart (elementsStep (Part.testClosePlaced { s.toPart with intake := stepped })))))

/-- A missing-frame step (R4, R6, R10, R11, R12): the reference advances, the counter gains one and at 32 the state is LOST,
source-live is held twice and then DEAD, every channel is ABSENT, held for two steps and then UNAVAILABLE, and the timer runs
for 10 ms. The count that loses the measurement while a hunt runs abandons it with MEASURE_LOST (R145, R146). That the clock
reaches the timer's end is the model's choice, log entry 2. -/
def Obligations.MissingFrameStepped : Prop :=
  ∀ (e : Nat) (s : State), s.intake.frameDue = some e →
    let kept (x : Channel) : Channel :=
      match x.held with
      | some v =>
        if x.hold < 2 then ⟨some .absent, some v, x.hold + 1, true, some v⟩ else ⟨some .absent, some v, 2, false, none⟩
      | none => ⟨some .absent, none, 2, false, none⟩
    let ch := s.intake.channels
    ∃ t : State, exec .missingFrameStep s = .next t ∧
      t.clock = max s.clock e ∧ t.intake.reference = s.intake.reference.map (· + 1) ∧
      t.intake.latest = s.intake.latest ∧ t.intake.loss = min (s.intake.loss + 1) 32 ∧
      t.intake.state = (if 32 ≤ s.intake.loss + 1 then .lost else s.intake.state) ∧
      t.intake.lastKind = some .missing ∧ t.intake.frameDue = some (max s.clock e + 10) ∧
      (s.intake.liveHold < 2 → t.intake.sourceLive = s.intake.sourceLive ∧ t.intake.liveHold = s.intake.liveHold + 1) ∧
      (2 ≤ s.intake.liveHold → t.intake.sourceLive = false ∧ t.intake.liveHold = 2) ∧
      t.intake.channels = ⟨kept ch.a, kept ch.b, kept ch.c, kept ch.n⟩ ∧
      t.intake.clippedSeen = s.intake.clippedSeen ∧
      t.links = s.links ∧ t.store = s.store ∧ t.posture = s.posture ∧
      (s.intake.state = .good → 32 ≤ s.intake.loss + 1 → s.toPart.hasBlock .measure = false → s.toPart.heldByHunt →
        ∃ q : Part,
          HuntAbandoned .measureLost none { measureLoss := true } none
            (raise .measureLoss (raise .blocks { s.toPart with
              clock := max s.clock e
              intake := { s.intake with reference := s.intake.reference.map (· + 1), loss := 32, state := .lost }
              entries :=
                s.entries ++
                  [⟨.measure, .part, 0, Part.uptime { s.toPart with clock := max s.clock e }, none, none, none⟩] })) q ∧
          t.hunt = q.hunt ∧ t.seq = q.seq ∧ t.mech = q.mech ∧ t.entries = q.entries ∧ t.records = q.records ∧
          t.notices = q.notices)

/-- Every step keeps the loss counter, the measurement state and the MEASURE block in agreement (R11, R12, R14). -/
def Obligations.MeasurementStaysSafe : Prop :=
  ∀ s t : State, MeasureSafe s.toPart → step s = .next t → MeasureSafe t.toPart

/-- CLEAR QUALITY from LOCAL or CONTROL clears the eight quality flags and nothing else, and is answered DONE; from CREW it
is answered NO_RIGHT and nothing changes (R9). -/
def Obligations.ClearQualityClearsFlags : Prop :=
  ∀ (k : LinkId) (m : Master) (s : State), s.toPart.serves k m →
    let p := s.toPart.found k m .clearQuality
    let clear : Quad Bool := ⟨false, false, false, false⟩
    (m ≠ .crew →
      exec (.clearQuality k) s =
        .next (s.withPart ({ p with intake := { p.intake with absentSeen := clear, clippedSeen := clear } }.answer k .clearQuality
          ⟨.done, [], false⟩))) ∧
    (m = .crew → exec (.clearQuality k) s = .next (s.withPart (p.answer k .clearQuality ⟨.noRight, [], false⟩)))

/-! ## Protection Elements -/

/-- An inverse-time element is picked up exactly when its current has reached its pickup, a CLIPPED one always, and its
multiple never exceeds 1280 (R22). -/
def Obligations.PickedUpExactlyAtPickup : Prop :=
  ∀ (c : Channel) (pickup v : Nat), 0 < pickup → c.available = true → c.value = some v →
    (c.isClipped = true → c.multiple pickup = some 1280 ∧ c.pickedUp pickup = true) ∧
    (c.isClipped = false → c.multiple pickup = some (min (v * 64 / pickup) 1280) ∧
      (c.pickedUp pickup = true ↔ pickup ≤ v))

/-- An accumulator accrues up to TRIP_FULL while its element is picked up, decays by 50,000 down to 0 below pickup, and is
held while its channel is UNAVAILABLE; the accrual lies between 111 and 1,000,000 for every curve, band and time multiplier
(R23, R24). The high-set count (R25) and the SEF count (R26) by the channel. A running step in NORMAL mode (R35) runs every
element, holds SEF while it is restrained (R27), compares for SOTF while its window runs (R28), keeps the mask (R30) and
counts the windows down (R29); the causes of the elements that tripped are the decision's (R36). With none, with a trip
order in progress (R37) or with the Sequencer where it drops decisions (R56), nothing follows. Else the Sequencer places its
trip (R55): in CLOSED and RECLAIM, and in CLOSING, where the close order ends trip-free and a manual close forces
CLOSE_ONTO_FAULT. -/
def Obligations.AccumulatorAccruesOrDecays : Prop :=
  (∀ (c : Channel) (pickup curve tms acc : Nat),
    (c.available = false → stepAcc c pickup (curve, tms) acc = acc) ∧
    (∀ m64 : Nat, c.multiple pickup = some m64 →
      (64 ≤ m64 → stepAcc c pickup (curve, tms) acc =
        min (acc + 1000000000 / (curveTime curve (bandOf m64) * tms)) 1000000) ∧
      (m64 < 64 → stepAcc c pickup (curve, tms) acc = acc - 50000))) ∧
  (∀ curve tms m64 : Nat, 1 ≤ curve → curve ≤ 4 → 5 ≤ tms → tms ≤ 150 → 64 ≤ m64 → m64 ≤ 1280 →
    111 ≤ accrual curve tms m64 ∧ accrual curve tms m64 ≤ 1000000) ∧
  (∀ (st : Settings) (c : Channel) (count : Nat),
    let reached (level : Nat) : Prop := c.available = true ∧ (c.isClipped = true ∨ level ≤ c.value.getD 0)
    let level := st.highsetLevel.getD 0
    let pickup := st.sefPickup.getD 0
    (level = 0 → stepHighset st c count = 0) ∧
    (level ≠ 0 → c.available = false → stepHighset st c count = count) ∧
    (level ≠ 0 → reached level → stepHighset st c count = min (count + 1) 50) ∧
    (level ≠ 0 → c.available = true → ¬reached level → stepHighset st c count = 0) ∧
    (highsetTrips st c count = true ↔ level ≠ 0 ∧ reached level ∧ max 1 (st.highsetDelay.getD 0 / 10) ≤ count) ∧
    (c.available = false → stepSef st c count = count) ∧
    (reached pickup → stepSef st c count = min (count + 1) 6000) ∧
    (¬reached pickup → reached (pickup * 9 / 10) → stepSef st c count = count) ∧
    (c.available = true → ¬reached (pickup * 9 / 10) → stepSef st c count = 0) ∧
    (sefTrips st c count = true ↔ reached (pickup * 9 / 10) ∧ st.sefDelay.getD 0 / 10 ≤ count)) ∧
  (∀ p : Part, p.elements.mode = .normal →
    let ch := p.intake.channels
    let st := p.settings
    let cold := p.elements.coldLoad.isSome
    let phase : Nat :=
      if cold then st.phasePickup.getD 0 * st.coldLoadMultiplier.getD 0 / 100 else st.phasePickup.getD 0
    let earth := st.earthPickup.getD 0
    let curve : Nat × Nat := (st.phaseCurve.getD 0, st.phaseTms.getD 0)
    let acc : Quad Nat :=
      ⟨stepAcc ch.a phase curve p.elements.acc.a, stepAcc ch.b phase curve p.elements.acc.b,
        stepAcc ch.c phase curve p.elements.acc.c,
        stepAcc ch.n earth (st.earthCurve.getD 0, st.earthTms.getD 0) p.elements.acc.n⟩
    let high : Phases Nat :=
      ⟨stepHighset st ch.a p.elements.highset.a, stepHighset st ch.b p.elements.highset.b,
        stepHighset st ch.c p.elements.highset.c⟩
    let restrained : Bool := ch.a.pickedUp phase || ch.b.pickedUp phase || ch.c.pickedUp phase || cold
    let sef := if restrained then p.elements.sef else stepSef st ch.n p.elements.sef
    let mask : Quad Bool := ⟨ch.a.atLeast phase, ch.b.atLeast phase, ch.c.atLeast phase, ch.n.atLeast earth⟩
    let sefPicked := ch.n.atLeast (st.sefPickup.getD 0)
    let quiet : Bool := !(mask.a || mask.b || mask.c || mask.n || sefPicked)
    let episode : Option Episode :=
      match p.elements.episode with
      | some e => e.step quiet ch
      | none => if p.elements.maskEmpty = true ∧ quiet = false then some (startEpisode p.uptime ch) else none
    let down (window : Option Nat) : Option Nat := window.bind fun n => if n ≤ 1 then none else some (n - 1)
    let elements : Elements :=
      { p.elements with
        acc := acc, highset := high, sef := sef, mask := mask, sefPicked := sefPicked, episode := episode
        sotf := down p.elements.sotf, coldLoad := down p.elements.coldLoad
        openCount := if p.position = .closed then p.elements.openCount else min (p.elements.openCount + 1) 360000 }
    let absentSeen : Quad Bool :=
      ⟨p.intake.absentSeen.a || !ch.a.available, p.intake.absentSeen.b || !ch.b.available,
        p.intake.absentSeen.c || !ch.c.available, p.intake.absentSeen.n || !ch.n.available⟩
    let highLanes : Phases Bool :=
      ⟨highsetTrips st ch.a high.a, highsetTrips st ch.b high.b, highsetTrips st ch.c high.c⟩
    let sotfLanes : Quad Bool := if p.elements.sotf.isSome then mask else ⟨false, false, false, false⟩
    let causes : Causes :=
      { phA := ch.a.pickedUp phase && decide (acc.a = 1000000), phB := ch.b.pickedUp phase && decide (acc.b = 1000000)
        phC := ch.c.pickedUp phase && decide (acc.c = 1000000), earth := ch.n.pickedUp earth && decide (acc.n = 1000000)
        highset := highLanes.a || highLanes.b || highLanes.c, sef := !restrained && sefTrips st ch.n sef
        sotf := sotfLanes.a || sotfLanes.b || sotfLanes.c || sotfLanes.n }
    (p.position = .closed ∨ (p.position = .travel ∧ p.mech.order = .close) →
      (causes = {} ∨ p.mech.order = .trip ∨ p.seq.state ∈ [.tripping, .deadTime, .closeWait, .lockout, .failed]) →
      elementsStep p = { p with intake := { p.intake with absentSeen := absentSeen }, elements := elements }) ∧
    ((p.position = .closed ∧ p.mech.order = .none ∧ (p.seq.state = .closed ∨ p.seq.state = .reclaim)) ∨
        (p.position = .travel ∧ p.mech.order = .close ∧ p.mech.placer = some .sequencer ∧ p.seq.state = .closing) →
      causes ≠ {} →
      let t := elementsStep p
      let stroke : Bool := p.seq.state = .closing
      t.mech =
        { p.mech with
          order := .trip, placer := some .sequencer, orderTimer := some (p.clock + 200), tripOutput := true
          closeOutput := !stroke && p.mech.closeOutput, travelTimer := none } ∧
      t.seq =
        { p.seq with
          state := .tripping, lastTrip := some ⟨.elements, none, causes, highLanes, sotfLanes⟩
          forced := if stroke = true ∧ p.seq.purpose = .manual then some .closeOntoFault else none
          purpose := if stroke then .none else p.seq.purpose
          deadTimer := none, closeWaitTimer := none, reclaimTimer := none } ∧
      t.elements =
        { elements with
          episode := none
          closeKind := if stroke then .none else p.elements.closeKind } ∧
      t.records =
        { ring :=
            ({ number := p.records.next, uptime := p.uptime, origin := .elements, causes := causes, requester := none
               highsetLanes := highLanes, sotfLanes := sotfLanes, shot := p.seq.shotsUsed, active := p.posture.active
               level := p.posture.level
               peaks := (match episode with
                 | some e => e.peaks
                 | none => ⟨none, none, none, none⟩)
               steps := episode.map (fun e => e.steps), outcome := .pending } :: p.records.ring).take 16
          next := if p.records.next = 65535 then 1 else p.records.next + 1, pendingRecord := some p.records.next } ∧
      (∀ m : Master, t.pendingFor m .trip = true ∧ t.pendingFor m .record = true) ∧
      t.intake = { p.intake with absentSeen := absentSeen } ∧ t.entries = p.entries ∧ t.posture = p.posture ∧
      t.table = p.table ∧ t.hunt = p.hunt ∧ t.links = p.links ∧ t.store = p.store ∧ t.clock = p.clock))

/-- On a held step only the open count moves, and only while the position is not CLOSED (R17, R20). -/
def Obligations.HeldStepKeepsElements : Prop :=
  ∀ p : Part, p.position ≠ .closed → (p.position = .travel → p.mech.order ≠ .close) →
    elementsStep p = { p with elements := { p.elements with openCount := min (p.elements.openCount + 1) 360000 } }

/-- Every step keeps the accumulators and the counts of Elements within their ranges (R20, R23, R25, R26). -/
def Obligations.ElementCountsStayBounded : Prop :=
  ∀ s t : State, CountsBounded s.elements → step s = .next t → CountsBounded t.elements

/-- The ends of the SOTF window, of the cold-load window and of a quiet episode, as commands, stop just those (R28, R29,
R32). The ends come by themselves inside the frame step that counts them: the model's choice, log entry 3. -/
def Obligations.ElementWindowsEnd : Prop :=
  ∀ s : State,
    exec .sotfWindowExpiry s = .next (s.withPart { s.toPart with elements := { s.elements with sotf := none } }) ∧
    exec .coldLoadWindowExpiry s = .next (s.withPart { s.toPart with elements := { s.elements with coldLoad := none } }) ∧
    exec .quietEnd s = .next (s.withPart { s.toPart with elements := { s.elements with episode := none } })

/-! ## Breaker Mechanism Interface -/

/-- Every step keeps the outputs to the one order in progress, never both, and the close output away from HOT_LINE (R46). -/
def Obligations.OutputsStaySafe : Prop :=
  ∀ s t : State, OutputsSafe s.toPart → step s = .next t → OutputsSafe t.toPart

/-- OPEN completes the Sequencer's trip order (R42, R48, R156, R59, R18): the outputs are released, the record reads OPENED
and Elements are cleared. The Sequencer then weighs R59's conditions in order: a forced lockout; TRIP_CAUSE for a cause
outside the reclosable five; SHOTS_EXHAUSTED; BLOCKED; and with none it waits the dead time of the next shot. A TRIP_CAUSE
lockout after SEF with auto hunt on is offered to the Hunt (R60 item 5, R129): if every condition of R128 is met as it stands
it starts, AUTOMATIC (R130), and orders its first probe OPEN (R131, R132), or with no switch to operate concludes at once
(R142, R144); otherwise the breaker stays in LOCKOUT. CLOSED completes the Sequencer's close order (R50, R64, R19, R29): the
outputs are released and Elements take the close kind; after an automatic close the Sequencer is in RECLAIM for the reclaim
time and no SOTF window is armed, after a manual close it is in CLOSED with no shots used and the SOTF window armed; the
cold-load window starts where the open count qualifies. CLOSED completes the Hunt's close of restoration: the hunt concludes,
its result is written, HUNT leaves the list, and the breaker is handed back in CLOSED with the SOTF window armed (R143, R144,
R148, R76). OPENED with the hand-back pending hands it back in LOCKOUT, or in FAILED where a failure has been noted (R147,
R76). -/
def Obligations.OpenCompletesTrip : Prop :=
  (∀ (n : Nat) (s : State), s.started = true → ¬(s.mech.openMade = true ∧ s.mech.closedMade = false) →
    s.mech.order = .trip → s.mech.placer = some .sequencer → s.mech.settled = some .closed →
    s.seq.state = .tripping → s.records.pendingRecord = some n →
    let settings := s.toPart.settings
    let done (t : State) : Prop :=
      exec (.contactChange true false) s = .next t ∧
        t.mech =
          { s.mech with
            openMade := true, closedMade := false, settled := some .opened, travelTimer := none
            discrepancyTimer := none, order := .none, placer := none, orderTimer := none, tripOutput := false
            closeOutput := false } ∧
        t.records.pendingRecord = none ∧ t.records.next = s.records.next ∧
        t.records.ring = s.records.ring.map (fun r => if r.number = n then { r with outcome := .opened } else r) ∧
        t.elements.acc = ⟨0, 0, 0, 0⟩ ∧ t.elements.highset = ⟨0, 0, 0⟩ ∧ t.elements.sef = 0 ∧ t.elements.episode = none ∧
        t.elements.sotf = none ∧ t.elements.coldLoad = none ∧ t.elements.openCount = 0 ∧ t.elements.mode = .normal ∧
        t.seq.openingMoment = some s.clock ∧ t.seq.shotsUsed = s.seq.shotsUsed ∧ t.seq.lastTrip = s.seq.lastTrip ∧
        t.posture = s.posture ∧ t.intake = s.intake ∧ t.table = s.table ∧ t.links = s.links ∧ t.store = s.store ∧
        t.clock = s.clock
    let locked (why : LockoutReason) (t : State) : Prop :=
      done t ∧ t.seq.state = .lockout ∧ t.seq.lockoutReason = some why ∧ t.seq.forced = none ∧ t.seq.pendingShot = none ∧
        t.seq.purpose = .none ∧ t.seq.deadTimer = none ∧ t.seq.closeWaitTimer = none ∧ t.seq.reclaimTimer = none ∧
        (∀ m : Master, t.pendingFor m .lockout = true) ∧ t.entries = s.entries ∧ t.hunt = s.hunt
    let c := s.seq.causes
    let outside : Bool := c.sef || c.sotf || c.manual || c.measureLoss
    let offered : Prop := c.sef = true ∧ settings.autoHunt = some 1
    let startable : Prop :=
      s.hunt.state.running = false ∧ s.table.state = .ready ∧
        (∀ j : Nat, 1 ≤ j → j ≤ s.table.n.getD 0 → s.toPart.believed j = .closed) ∧ s.toPart.hasBlock .hotLine = false ∧
        s.toPart.hasBlock .mechanism = false ∧ s.toPart.hasBlock .measure = false ∧ s.posture.level ≠ .ban ∧
        s.posture.silent = false ∧ s.mech.energyHigh = true
    (∀ f : Forced, s.seq.forced = some f → ∃ t : State, locked f.reason t) ∧
    (s.seq.forced = none → outside = true → ¬(offered ∧ startable) → ∃ t : State, locked .tripCause t) ∧
    (∀ size q limit : Nat, s.seq.forced = none → offered → startable → s.table.n = some size →
      settings.huntTestLimit = some limit → 0 < limit → s.toPart.hasBlock .hunt = false → 1 ≤ q → q ≤ size →
      (s.table.switch q).operable = true →
      (∀ j : Nat, 1 ≤ j → j ≤ size → (s.table.switch j).operable = true →
        probeScore 0 size q < probeScore 0 size j ∨ (probeScore 0 size q = probeScore 0 size j ∧ q ≤ j)) →
      ∃ t : State, done t ∧ t.seq.state = .huntHeld ∧ t.seq.failureNoted = false ∧
        t.seq.lockoutReason = some .tripCause ∧
        t.entries = s.entries ++ [⟨.hunt, .part, 0, s.toPart.uptime, none, none, none⟩] ∧
        t.hunt =
          { s.hunt with
            state := .ordering, startedBy := .automatic, lo := 0, hi := size, probe := some q, doubtfulSeen := false
            testsUsed := 0, testLimit := some limit, testPickup := settings.sefPickup, unusable := 0
            outstanding := some ⟨s.hunt.nextOrder, q, (s.table.switch q).ident.getD 0, .openSwitch⟩
            nextOrder := s.hunt.nextOrder + 1, ordersIssued := 1, handBackPending := false
            orderTimer := some (s.clock + s.table.timeout.getD 0 * 1000) } ∧
        t.pendingFor .control .huntOrder = true ∧
        ∀ m : Master, t.pendingFor m .lockout = true ∧ t.pendingFor m .blocks = true) ∧
    (∀ size limit : Nat, s.seq.forced = none → offered → startable → s.table.n = some size → 1 ≤ size →
      settings.huntTestLimit = some limit → 0 < limit → s.toPart.hasBlock .hunt = false →
      (∀ j : Nat, 1 ≤ j → j ≤ size → (s.table.switch j).operable = false) →
      ∃ t : State, done t ∧ t.seq.state = .lockout ∧ t.seq.lockoutReason = some .huntEnd ∧ t.entries = s.entries ∧
        t.hunt =
          { s.hunt with
            state := .concluded, startedBy := .automatic, lo := 0, hi := size, probe := none, testsUsed := 0
            testLimit := some limit, testPickup := settings.sefPickup, unusable := 0, ordersIssued := 0
            handBackPending := false, restoreReason := .noCandidate
            result := some
              { outcome := .concludedRange, reason := .noCandidate, detail := none, startedBy := .automatic, lo := 0
                hi := size, testsUsed := 0, testLimit := limit, ordersIssued := 0, unusable := 0 } } ∧
        ∀ m : Master, t.pendingFor m .lockout = true ∧ t.pendingFor m .blocks = true ∧ t.pendingFor m .huntEnd = true) ∧
    (s.seq.forced = none → outside = false → settings.shots.getD 0 < s.seq.shotsUsed + 1 →
      ∃ t : State, locked .shotsExhausted t) ∧
    (s.seq.forced = none → outside = false → s.seq.shotsUsed + 1 ≤ settings.shots.getD 0 → s.entries ≠ [] →
      ∃ t : State, locked .blocked t) ∧
    (s.seq.forced = none → outside = false → s.seq.shotsUsed + 1 ≤ settings.shots.getD 0 → s.entries = [] →
      ∃ t : State, done t ∧ t.seq.state = .deadTime ∧ t.seq.pendingShot = some (s.seq.shotsUsed + 1) ∧
        t.seq.deadTimer = some (s.clock + settings.deadTime (s.seq.shotsUsed + 1)) ∧ t.notices = s.notices ∧
        t.entries = s.entries ∧ t.hunt = s.hunt)) ∧
  (∀ s : State, s.started = true → ¬(s.mech.openMade = false ∧ s.mech.closedMade = true) → s.mech.order = .close →
    s.mech.placer = some .sequencer → s.mech.settled = some .opened → s.seq.state = .closing →
    let settings := s.toPart.settings
    let mech : Mechanism :=
      { s.mech with
        openMade := false, closedMade := true, settled := some .closed, travelTimer := none, discrepancyTimer := none
        order := .none, placer := none, orderTimer := none, tripOutput := false, closeOutput := false }
    let coldLoad : Option Nat :=
      if settings.coldLoadThreshold.getD 0 * 100 ≤ s.elements.openCount ∧ 100 < settings.coldLoadMultiplier.getD 0 then
        some (settings.coldLoadDuration.getD 0 * 100)
      else s.elements.coldLoad
    (s.seq.purpose = .automatic → s.elements.closeKind = .automatic →
      exec (.contactChange false true) s =
        .next (s.withPart { s.toPart with
          mech := mech
          elements := { s.elements with coldLoad := coldLoad, mode := .normal, closeKind := .none }
          seq := { s.seq with
            state := .reclaim, purpose := .none, closeMoment := some s.clock
            reclaimTimer := some (s.clock + settings.reclaimTime.getD 0 * 1000) } })) ∧
    (s.seq.purpose = .manual → s.elements.closeKind = .manual →
      exec (.contactChange false true) s =
        .next (s.withPart { s.toPart with
          mech := mech
          elements := { s.elements with
            sotf := some (settings.sotfWindow.getD 0 / 10), coldLoad := coldLoad, mode := .normal, closeKind := .none }
          seq := { s.seq with
            state := .closed, shotsUsed := 0, deadTimer := none, closeWaitTimer := none, reclaimTimer := none
            pendingShot := none, purpose := .none, forced := none } }))) ∧
  (∀ s : State, s.started = true → s.seq.state = .huntHeld → s.mech.placer = some .hunt →
    let ended (closed : Bool) : Mechanism :=
      { s.mech with
        openMade := !closed, closedMade := closed, settled := some (if closed then .closed else .opened)
        travelTimer := none, discrepancyTimer := none, order := .none, placer := none, orderTimer := none
        tripOutput := false, closeOutput := false }
    (s.mech.order = .close → ¬(s.mech.openMade = false ∧ s.mech.closedMade = true) → s.mech.settled = some .opened →
      s.hunt.state = .restoring → s.elements.closeKind = .huntRestore → s.seq.failureNoted = false →
      ∃ q : Part, exec (.contactChange false true) s = .next (s.withPart q) ∧
        q =
          { s.toPart with
            mech := ended true
            elements :=
              { s.elements with
                sotf := some (s.toPart.settings.sotfWindow.getD 0 / 10), coldLoad := s.toPart.coldLoadAfterClose
                mode := .normal, closeKind := .none }
            hunt := s.hunt.concludedBy
            entries := s.toPart.entriesLeft
            seq := { s.seq.rests .closed with shotsUsed := 0 }
            notices := q.notices } ∧
        RaisedSince s.toPart q [.huntEnd] ∧
        (s.toPart.hasBlock .hunt = true → ∀ m : Master, q.pendingFor m .blocks = true)) ∧
    (∀ n : Nat, s.mech.order = .trip → ¬(s.mech.openMade = true ∧ s.mech.closedMade = false) →
      s.mech.settled = some .closed → s.hunt.handBackPending = true → s.records.pendingRecord = some n →
      ∃ q : Part, exec (.contactChange true false) s = .next (s.withPart q) ∧
        q =
          { s.toPart with
            mech := ended false
            elements := Elements.cleared
            records :=
              { s.records with
                ring := s.records.ring.map (fun r => if r.number = n then { r with outcome := .opened } else r)
                pendingRecord := none }
            hunt := { s.hunt with handBackPending := false }
            seq := if s.seq.failureNoted then s.seq.rests .failed else s.seq.lockedOut .huntEnd
            notices := q.notices } ∧
        RaisedSince s.toPart q (if s.seq.failureNoted then [] else [.lockout])))

/-- An external open in CLOSED or RECLAIM locks out with EXTERNAL_OPEN, and an external close in LOCKOUT puts the breaker
back in service with the SOTF window armed (R52, R73, R74, R19). While a hunt runs an external operation abandons it with
EXTERNAL (R145, R146): Elements have been told the position first (R18, R19), the Sequencer in HUNT_HELD takes nothing (R75), an
open breaker is handed back in LOCKOUT, and a closed one is tripped with an empty cause set. -/
def Obligations.ExternalOperationTaken : Prop :=
  ∀ s : State, s.started = true → s.mech.order = .none →
    let contacts (closed : Bool) : Mechanism :=
      { s.mech with
        openMade := !closed, closedMade := closed, settled := some (if closed then .closed else .opened)
        travelTimer := none, discrepancyTimer := none }
    (¬(s.mech.openMade = true ∧ s.mech.closedMade = false) → s.mech.settled = some .closed →
      (s.hunt.state.running = false → (s.seq.state = .closed ∨ s.seq.state = .reclaim) →
        ∃ t : State, exec (.contactChange true false) s = .next t ∧ t.seq.state = .lockout ∧
          t.seq.lockoutReason = some .externalOpen ∧ t.seq.openingMoment = some s.clock ∧ t.seq.reclaimTimer = none ∧
          t.mech.settled = some .opened ∧ t.elements.acc = ⟨0, 0, 0, 0⟩ ∧ t.elements.openCount = 0 ∧
          (∀ m : Master, t.pendingFor m .lockout = true) ∧ t.mech.tripOutput = s.mech.tripOutput ∧
          t.records = s.records ∧ t.entries = s.entries ∧ t.posture = s.posture ∧ t.links = s.links) ∧
      (s.toPart.heldByHunt →
        ∃ q : Part, exec (.contactChange true false) s = .next (s.withPart q) ∧
          HuntAbandoned .external none {} none
            { s.toPart with mech := contacts false, elements := Elements.cleared } q)) ∧
    (¬(s.mech.openMade = false ∧ s.mech.closedMade = true) → s.mech.settled = some .opened →
      (s.hunt.state.running = false → s.seq.state = .lockout →
        ∃ t : State, exec (.contactChange false true) s = .next t ∧ t.seq.state = .closed ∧ t.seq.shotsUsed = 0 ∧
          t.mech.settled = some .closed ∧ t.elements.sotf = some (s.toPart.settings.sotfWindow.getD 0 / 10) ∧
          t.elements.mode = .normal ∧ t.notices = s.notices ∧ t.records = s.records ∧ t.entries = s.entries ∧
          t.posture = s.posture ∧ t.links = s.links) ∧
      (s.toPart.heldByHunt →
        ∃ q : Part, exec (.contactChange false true) s = .next (s.withPart q) ∧
          HuntAbandoned .external none {} none
            { s.toPart with
              mech := contacts true
              elements :=
                { s.elements with
                  sotf := some (s.toPart.settings.sotfWindow.getD 0 / 10), coldLoad := s.toPart.coldLoadAfterClose
                  mode := .normal, closeKind := .none } } q))

/-- A contact change into TRAVEL or DISCREPANT only moves the contacts and the two timers that watch them (R41, R43). -/
def Obligations.ContactsUnsettled : Prop :=
  ∀ (made : Bool) (s : State), s.started = true → ¬(s.mech.openMade = made ∧ s.mech.closedMade = made) →
    exec (.contactChange made made) s =
      .next (s.withPart { s.toPart with mech := { s.mech with
        openMade := made
        closedMade := made
        travelTimer := if made = false ∧ s.mech.order = .none then some (s.clock + 300) else none
        discrepancyTimer := if made = true then some (s.clock + 300) else none } })

/-- The travel or the discrepancy timer's expiry is a position failure (R43, R44, R71): MECHANISM stands in the list,
MECHANISM_FAIL is pending for every master, the Sequencer is FAILED, and no order or output is touched. While a hunt runs the
placement of MECHANISM abandons it with MECHANISM, with no trip and any order left to its own end, and the breaker is handed
back in FAILED (R75, R76, R85, R145, R146 item 5); with the hand-back pending it is handed back the same (R147). That the clock
reaches the timer's end is the model's choice, log entry 2. -/
def Obligations.PositionFailureDeclared : Prop :=
  ∀ (c : Instr) (e : Nat) (s : State),
    (c = .travelTimerExpiry ∧ s.mech.travelTimer = some e) ∨ (c = .discrepancyTimerExpiry ∧ s.mech.discrepancyTimer = some e) →
    let mech : Mechanism :=
      { s.mech with
        travelTimer := if c = .travelTimerExpiry then none else s.mech.travelTimer
        discrepancyTimer := if c = .discrepancyTimerExpiry then none else s.mech.discrepancyTimer }
    let base : Part := { s.toPart with clock := max s.clock e, mech := mech }
    (s.seq.state ≠ .huntHeld → s.hunt.state.running = false → s.hunt.handBackPending = false →
      ∃ t : State, exec c s = .next t ∧ t.toPart.hasBlock .mechanism = true ∧
        (∀ m : Master, t.pendingFor m .mechanismFail = true) ∧ t.seq.state = .failed ∧ t.clock = max s.clock e ∧
        t.mech = mech ∧ t.intake = s.intake ∧ t.elements = s.elements ∧ t.records = s.records ∧ t.posture = s.posture ∧
        t.links = s.links ∧ t.store = s.store) ∧
    (s.toPart.heldByHunt → s.toPart.hasBlock .mechanism = false →
      ∃ q : Part, exec c s = .next (s.withPart (raise .mechanismFail q)) ∧
        HandedToFailure (s.hunt.abandonedBy .mechanism none s.hunt.handBackPending) base q ∧
        ∀ m : Master, q.pendingFor m .huntEnd = true) ∧
    (s.seq.state = .huntHeld → s.hunt.state.running = false → s.hunt.handBackPending = true →
      s.toPart.hasBlock .mechanism = false → s.toPart.hasBlock .hunt = false →
      ∃ q : Part, exec c s = .next (s.withPart (raise .mechanismFail q)) ∧
        HandedToFailure { s.hunt with handBackPending := false } base q)

/-- The maximum time of the Sequencer's trip or close order (R48, R50, R71): the output is released, MECHANISM stands in the
list, MECHANISM_FAIL is pending, the Sequencer is FAILED, and a failed trip's record reads TRIP_FAIL. The maximum time of an
order of the Hunt's acts through the MECHANISM placement: a running hunt is abandoned with MECHANISM, with no trip, and a
breaker whose hand-back is pending is handed back; both in FAILED, and the outcome is not acted on (R138, R141, R143, R146 item
5, R147). That the clock reaches the timer's end is the model's choice, log entry 2. -/
def Obligations.OrderMaximumTimes : Prop :=
  ∀ (e : Nat) (s : State), s.mech.orderTimer = some e →
    let travel : Option Nat := if s.toPart.position = .travel then some (max s.clock e + 300) else s.mech.travelTimer
    let tripFailed (n : Nat) : List FaultRecord :=
      s.records.ring.map (fun r => if r.number = n then { r with outcome := .tripFail } else r)
    let failed (t : State) : Prop :=
      t.mech.order = .none ∧ t.mech.placer = none ∧ t.mech.orderTimer = none ∧ t.mech.tripOutput = false ∧
        t.mech.closeOutput = false ∧ t.toPart.hasBlock .mechanism = true ∧
        (∀ m : Master, t.pendingFor m .mechanismFail = true) ∧ t.seq.state = .failed ∧ t.clock = max s.clock e ∧
        t.mech.travelTimer = travel ∧
        t.intake = s.intake ∧ t.posture = s.posture ∧ t.links = s.links ∧ t.store = s.store
    let base : Part :=
      { s.toPart with
        clock := max s.clock e
        mech :=
          { s.mech with
            order := .none, placer := none, orderTimer := none, tripOutput := false, closeOutput := false
            travelTimer := travel } }
    (s.mech.placer = some .sequencer → s.hunt.state.running = false → s.hunt.handBackPending = false →
      (s.mech.order = .trip → s.seq.state = .tripping → ∀ n : Nat, s.records.pendingRecord = some n →
        ∃ t : State, exec .tripOrderTimeout s = .next t ∧ failed t ∧ t.elements = s.elements ∧
          t.records.pendingRecord = none ∧ t.records.ring = tripFailed n) ∧
      (s.mech.order = .close → s.seq.state = .closing →
        ∃ t : State, exec .closeOrderTimeout s = .next t ∧ failed t ∧ t.records = s.records ∧
          t.elements = { s.elements with closeKind := .none, mode := .normal })) ∧
    (s.mech.placer = some .hunt → s.seq.state = .huntHeld → s.toPart.hasBlock .mechanism = false →
      (∀ n : Nat, s.mech.order = .trip → s.records.pendingRecord = some n →
        (s.hunt.state.running = true ∨ (s.hunt.handBackPending = true ∧ s.toPart.hasBlock .hunt = false)) →
        ∃ q : Part,
          exec .tripOrderTimeout s =
            .next (s.withPart { raise .mechanismFail q with
              records := { s.records with ring := tripFailed n, pendingRecord := none } }) ∧
          (s.hunt.state.running = true →
            HandedToFailure (s.hunt.abandonedBy .mechanism none s.hunt.handBackPending) base q ∧
              ∀ m : Master, q.pendingFor m .huntEnd = true) ∧
          (s.hunt.state.running = false → HandedToFailure { s.hunt with handBackPending := false } base q)) ∧
      (s.mech.order = .close → s.hunt.state.running = true →
        ∃ q : Part,
          exec .closeOrderTimeout s =
            .next (s.withPart { raise .mechanismFail q with elements := { q.elements with closeKind := .none } }) ∧
          HandedToFailure (s.hunt.abandonedBy .mechanism none s.hunt.handBackPending) base q ∧
          ∀ m : Master, q.pendingFor m .huntEnd = true))

/-- A change of energy-ready to LOW, or where nobody waits on it, or before start-up is complete, only changes what is read
(R45); in CLOSE_WAIT with the list empty and the source LIVE, HIGH places the automatic close of the pending shot (R62, R63).
That the pending shot is none once that close is accepted is the model's choice, log entry 13. In the Hunt's close wait HIGH
places the close due, the test close only with the source LIVE, or Mechanism's refusal abandons the hunt (R137, R138, R143);
that close due is NONE after the close of restoration is the model's reading, log entry 14. -/
def Obligations.EnergyReadyTaken : Prop :=
  ∀ (high : Bool) (s : State), s.mech.energyHigh = !high →
    let changed : Part := { s.toPart with mech := { s.mech with energyHigh := high } }
    (high = false ∨ s.started = false ∨ (s.seq.state ≠ .closeWait ∧ s.hunt.closeWaitTimer = none) →
      exec (.energyReadyChange high) s = .next (s.withPart changed)) ∧
    (∀ k : Nat, high = true → s.started = true → s.seq.state = .closeWait → s.entries = [] → s.intake.sourceLive = true →
      s.seq.pendingShot = some k → k ≤ s.toPart.settings.shots.getD 0 → s.mech.order = .none →
      s.toPart.position = .opened → s.hunt.closeWaitTimer = none →
      exec (.energyReadyChange high) s =
        .next (s.withPart { s.toPart with
          mech := { s.mech with
            energyHigh := true, order := .close, placer := some .sequencer, orderTimer := some (s.clock + 300)
            closeOutput := true, travelTimer := none }
          elements := { s.elements with closeKind := .automatic }
          seq := { s.seq with
            state := .closing, shotsUsed := k, pendingShot := none, purpose := .automatic, deadTimer := none
            closeWaitTimer := none } })) ∧
    (high = true → s.started = true → s.toPart.heldByHunt → s.hunt.closeWaitTimer ≠ none →
      (∀ due : CloseDue, due ≠ .none → s.hunt.closeDue = due → (due = .test → s.intake.sourceLive = true) →
        ∃ q : Part, exec (.energyReadyChange high) s = .next (s.withPart q) ∧ DueClosePlaced due changed q) ∧
      (s.hunt.closeDue = .test → s.intake.sourceLive = false →
        exec (.energyReadyChange high) s = .next (s.withPart changed)))

/-- RESET MECHANISM (R53, R72): NO_RIGHT from CREW; refused with an order in progress or an unsettled position; else
MECHANISM leaves the list, and a FAILED Sequencer recovers by the position. -/
def Obligations.ResetMechanismTaken : Prop :=
  ∀ (k : LinkId) (m : Master) (s : State), s.toPart.serves k m →
    let p := s.toPart.found k m .resetMechanism
    (m = .crew → exec (.resetMechanism k) s = .next (s.withPart (p.answer k .resetMechanism ⟨.noRight, [], false⟩))) ∧
    (m ≠ .crew → p.mech.order ≠ .none →
      exec (.resetMechanism k) s = .next (s.withPart (p.answer k .resetMechanism ⟨.wrongState, [1], false⟩))) ∧
    (m ≠ .crew → p.mech.order = .none → (p.position = .travel ∨ p.position = .discrepant) →
      exec (.resetMechanism k) s = .next (s.withPart (p.answer k .resetMechanism ⟨.wrongState, [2], false⟩))) ∧
    (m ≠ .crew → p.mech.order = .none → (p.position = .opened ∨ p.position = .closed) →
      ∃ t : State, exec (.resetMechanism k) s = .next t ∧ t.toPart.hasBlock .mechanism = false ∧
        t.entries = p.entries.filter (fun e => e.kind ≠ .mechanism) ∧
        (p.hasBlock .mechanism = true → ∀ x : Master, t.pendingFor x .blocks = true) ∧
        (p.seq.state ≠ .failed → t.seq = p.seq) ∧
        (p.seq.state = .failed → p.position = .closed → t.seq.state = .closed ∧ t.seq.shotsUsed = 0) ∧
        (p.seq.state = .failed → p.position = .opened → t.seq.state = .lockout ∧
          t.seq.lockoutReason = some .mechanismReset) ∧
        (t.links.get k).answer = some ⟨[2, 9, 0], false⟩ ∧ t.mech = p.mech ∧ t.elements = p.elements ∧
        t.intake = p.intake ∧ t.posture = p.posture ∧ t.records = p.records ∧ t.hunt = p.hunt ∧ t.store = p.store)

/-! ## Reclose Sequencer -/

/-- TRIP from a master where a trip order is placed (R55, R58, R47, R51, R153). With the breaker in service, in LOCKOUT or
FAILED with the position not OPEN, and in CLOSING, where the Sequencer's close order ends trip-free: the trip output is
asserted for 200 ms, a record with cause MANUAL and the master is written, TRIP is pending for all, and the Sequencer is
TRIPPING towards a lockout, or stays FAILED. In CLOSING with the position still OPEN the trip ends at once and locks out. In
FAILED with a trip order in progress the answer is IN_PROGRESS. In HUNT_HELD a running hunt is abandoned with MANUAL (R146):
it hands the breaker back in LOCKOUT if the position is OPEN, waits on a trip in progress, and otherwise places the Hunt's
own trip, which ends its close, in progress, trip-free; with no hunt running nothing changes (R147). -/
def Obligations.TripRequestPlacesTrip : Prop :=
  ∀ (k : LinkId) (m : Master) (s : State), s.toPart.serves k m →
    let p := s.toPart.found k m .trip
    let record (origin : Origin) (shot : Nat) : FaultRecord :=
      { number := p.records.next, uptime := p.uptime, origin := origin, causes := { manual := true }, requester := some m
        highsetLanes := ⟨false, false, false⟩, sotfLanes := ⟨false, false, false, false⟩, shot := shot
        active := p.posture.active, level := p.posture.level
        peaks := (match p.elements.episode with
          | some e => e.peaks
          | none => ⟨none, none, none, none⟩)
        steps := p.elements.episode.map (fun e => e.steps), outcome := .pending }
    let next : Nat := if p.records.next = 65535 then 1 else p.records.next + 1
    let answered (result : Byte) (t : State) : Prop := (t.links.get k).answer = some ⟨[3, 7, 0, result], false⟩
    let lastTrip : LastTrip :=
      ⟨.manual, some m, { manual := true }, ⟨false, false, false⟩, ⟨false, false, false, false⟩⟩
    let kept (t : State) : Prop := t.intake = p.intake ∧ t.posture = p.posture ∧ t.table = p.table ∧ t.store = p.store
    let abandoned : HuntResult :=
      { outcome := .abandoned, reason := .manual, detail := some (.master m), startedBy := p.hunt.startedBy
        lo := p.hunt.lo, hi := p.hunt.hi, testsUsed := p.hunt.testsUsed, testLimit := p.hunt.testLimit.getD 0
        ordersIssued := p.hunt.ordersIssued, unusable := p.hunt.unusable }
    let ended (pending : Bool) : Hunt :=
      { p.hunt with
        outstanding := none, orderTimer := none, closeWaitTimer := none, closeDue := .none, state := .abandoned
        result := some abandoned, handBackPending := pending }
    (p.seq.state ∈ [.closed, .reclaim, .lockout, .failed, .closing] → p.mech.order ≠ .trip →
      (p.mech.order = .close → p.mech.placer = some .sequencer) → p.position ≠ .opened →
      ∃ t : State, exec (.trip k) s = .next t ∧
        t.mech =
          { p.mech with
            order := .trip, placer := some .sequencer, orderTimer := some (p.clock + 200), tripOutput := true
            closeOutput := decide (p.mech.order ≠ .close) && p.mech.closeOutput, travelTimer := none } ∧
        t.seq =
          { p.seq with
            state := if p.seq.state = .failed then .failed else .tripping
            purpose := if p.mech.order = .close then .none else p.seq.purpose
            lastTrip := some lastTrip
            forced := some .manualTrip, deadTimer := none, closeWaitTimer := none, reclaimTimer := none } ∧
        t.elements =
          { p.elements with
            episode := none
            closeKind := if p.mech.order = .close then .none else p.elements.closeKind
            mode := if p.mech.order = .close then .normal else p.elements.mode } ∧
        t.records =
          { ring := (record .manual p.seq.shotsUsed :: p.records.ring).take 16, next := next
            pendingRecord := some p.records.next } ∧
        (∀ x : Master, t.pendingFor x .trip = true ∧ t.pendingFor x .record = true) ∧
        answered 0 t ∧ t.entries = p.entries ∧ t.hunt = p.hunt ∧ kept t) ∧
    (p.seq.state = .closing → p.mech.order = .close → p.mech.placer = some .sequencer → p.position = .opened →
      ∃ t : State, exec (.trip k) s = .next t ∧ t.mech.order = .none ∧ t.mech.tripOutput = false ∧
        t.mech.closeOutput = false ∧ t.seq.state = .lockout ∧ t.seq.lockoutReason = some .manualTrip ∧
        t.seq.openingMoment = some p.clock ∧ t.seq.purpose = .none ∧ t.elements.closeKind = .none ∧
        t.records.ring.head? = some { record .manual p.seq.shotsUsed with outcome := .opened } ∧
        t.records.next = next ∧ t.records.pendingRecord = none ∧
        (∀ x : Master, t.pendingFor x .trip = true ∧ t.pendingFor x .lockout = true) ∧ answered 0 t ∧
        t.entries = p.entries ∧ t.hunt = p.hunt ∧ kept t) ∧
    (p.seq.state = .failed → p.mech.order = .trip → p.position ≠ .opened →
      exec (.trip k) s = .next (s.withPart (p.answer k .trip ⟨.done, [2], false⟩))) ∧
    (p.seq.state = .huntHeld → p.hunt.state.running = false →
      exec (.trip k) s = .next (s.withPart (p.answer k .trip ⟨.done, [3], false⟩))) ∧
    (p.heldByHunt →
      ∃ q : Part, exec (.trip k) s = .next (s.withPart (q.answer k .trip ⟨.done, [3], false⟩)) ∧
        HuntAbandoned .manual (some (.master m)) { manual := true } (some m) p q) ∧
    (p.seq.state = .huntHeld → p.hunt.state.running = true →
      let dropped (t : State) : Prop :=
        t.toPart.hasBlock .hunt = false ∧ (∀ x : Master, t.pendingFor x .huntEnd = true) ∧ answered 3 t ∧ kept t
      (p.position = .opened → p.mech.order = .none → p.seq.failureNoted = false →
        ∃ t : State, exec (.trip k) s = .next t ∧ dropped t ∧ t.hunt = ended p.hunt.handBackPending ∧
          t.seq.state = .lockout ∧ t.seq.lockoutReason = some .huntEnd ∧ t.mech = p.mech ∧ t.records = p.records) ∧
      (p.mech.order = .trip → p.position ≠ .opened →
        ∃ t : State, exec (.trip k) s = .next t ∧ dropped t ∧ t.hunt = ended true ∧ t.seq = p.seq ∧ t.mech = p.mech ∧
          t.records = p.records ∧ t.elements = p.elements) ∧
      (p.mech.order = .none → p.position ≠ .opened →
        ∃ t : State, exec (.trip k) s = .next t ∧ dropped t ∧ t.hunt = ended true ∧ t.seq = p.seq ∧
          t.mech =
            { p.mech with
              order := .trip, placer := some .hunt, orderTimer := some (p.clock + 200), tripOutput := true
              travelTimer := none } ∧
          t.elements = { p.elements with episode := none } ∧
          t.records =
            { ring := (record .hunt 0 :: p.records.ring).take 16, next := next, pendingRecord := some p.records.next } ∧
          ∀ x : Master, t.pendingFor x .trip = true ∧ t.pendingFor x .record = true))

/-- TRIP where no order is placed (R58): in TRIPPING the trip gains the forced lockout MANUAL_TRIP unless it has one; in
DEAD_TIME and CLOSE_WAIT the Sequencer locks out; in LOCKOUT and FAILED with the breaker OPEN nothing happens. -/
def Obligations.TripRequestWithoutOrder : Prop :=
  ∀ (k : LinkId) (m : Master) (s : State), s.toPart.serves k m →
    let p := s.toPart.found k m .trip
    (p.seq.state = .tripping →
      exec (.trip k) s =
        .next (s.withPart ({ p with seq := { p.seq with
          forced := match p.seq.forced with
            | some f => some f
            | none => some .manualTrip } }.answer k .trip ⟨.done, [2], false⟩))) ∧
    ((p.seq.state = .deadTime ∨ p.seq.state = .closeWait) → ∃ t : State, exec (.trip k) s = .next t ∧
      t.seq.state = .lockout ∧ t.seq.lockoutReason = some .manualTrip ∧ t.seq.pendingShot = none ∧
      t.seq.deadTimer = none ∧ t.seq.closeWaitTimer = none ∧ (∀ x : Master, t.pendingFor x .lockout = true) ∧
      (t.links.get k).answer = some ⟨[3, 7, 0, 1], false⟩ ∧ t.mech = p.mech ∧ t.records = p.records) ∧
    ((p.seq.state = .lockout ∨ p.seq.state = .failed) → p.position = .opened →
      exec (.trip k) s = .next (s.withPart (p.answer k .trip ⟨.done, [1], false⟩)))

/-- CLOSE (R66, R49): accepted in LOCKOUT with the breaker OPEN, no HOT_LINE or MECHANISM block, measurement GOOD and the
spring charged; refused by the first of the six conditions that holds, and where Mechanism refuses. -/
def Obligations.CloseRequestTaken : Prop :=
  ∀ (k : LinkId) (m : Master) (s : State), s.toPart.serves k m → m ≠ .crew →
    let p := s.toPart.found k m .close
    (p.seq.state = .lockout → p.hasBlock .hotLine = false → p.hasBlock .mechanism = false → p.intake.state = .good →
      p.mech.energyHigh = true → p.mech.order = .none → p.position = .opened →
      exec (.close k) s =
        .next (s.withPart ({ p with
          mech := { p.mech with
            order := .close, placer := some .sequencer, orderTimer := some (p.clock + 300), closeOutput := true
            travelTimer := none }
          elements := { p.elements with closeKind := .manual }
          seq := { p.seq with state := .closing, shotsUsed := 0, purpose := .manual } }.answer k .close ⟨.done, [], false⟩))) ∧
    (p.seq.state = .huntHeld →
      exec (.close k) s = .next (s.withPart (p.answer k .close ⟨.wrongState, [4], false⟩))) ∧
    (p.seq.state ≠ .huntHeld → p.seq.state ≠ .lockout →
      exec (.close k) s = .next (s.withPart (p.answer k .close ⟨.wrongState, [3], false⟩))) ∧
    (p.seq.state = .lockout → p.hasBlock .hotLine = true →
      exec (.close k) s = .next (s.withPart (p.answer k .close ⟨.wrongState, [5], false⟩))) ∧
    (p.seq.state = .lockout → p.hasBlock .hotLine = false → p.hasBlock .mechanism = true →
      exec (.close k) s = .next (s.withPart (p.answer k .close ⟨.wrongState, [6], false⟩))) ∧
    (p.seq.state = .lockout → p.hasBlock .hotLine = false → p.hasBlock .mechanism = false → p.intake.state = .lost →
      exec (.close k) s = .next (s.withPart (p.answer k .close ⟨.wrongState, [7], false⟩))) ∧
    (p.seq.state = .lockout → p.hasBlock .hotLine = false → p.hasBlock .mechanism = false → p.intake.state = .good →
      p.mech.energyHigh = false →
      exec (.close k) s = .next (s.withPart (p.answer k .close ⟨.wrongState, [8], false⟩))) ∧
    (p.seq.state = .lockout → p.hasBlock .hotLine = false → p.hasBlock .mechanism = false → p.intake.state = .good →
      p.mech.energyHigh = true → (p.mech.order ≠ .none ∨ p.position ≠ .opened) →
      exec (.close k) s =
        .next (s.withPart ({ p with elements := { p.elements with closeKind := .none, mode := .normal } }.answer k .close
          ⟨.wrongState, [if p.mech.order = Order.none then 9 else 1], false⟩)))

/-- The dead-time expiry in DEAD_TIME (R61, R63, R49): with the list empty, the source LIVE and the spring charged, the
pending shot is closed; with one of them missing, the Sequencer waits up to 10 s. That the pending shot is none once that
close is accepted is the model's choice, log entry 13, and that the clock reaches the timer's end is log entry 2. -/
def Obligations.DeadTimeExpiryTaken : Prop :=
  ∀ (e k : Nat) (s : State), s.seq.deadTimer = some e → s.seq.state = .deadTime → s.seq.pendingShot = some k →
    (s.entries = [] → s.intake.sourceLive = true → s.mech.energyHigh = true → k ≤ s.toPart.settings.shots.getD 0 →
      s.mech.order = .none → s.toPart.position = .opened →
      exec .deadTimeExpiry s =
        .next (s.withPart { s.toPart with
          clock := max s.clock e
          mech := { s.mech with
            order := .close, placer := some .sequencer, orderTimer := some (max s.clock e + 300), closeOutput := true
            travelTimer := none }
          elements := { s.elements with closeKind := .automatic }
          seq := { s.seq with
            state := .closing, shotsUsed := k, pendingShot := none, purpose := .automatic, deadTimer := none
            closeWaitTimer := none } })) ∧
    ((s.entries ≠ [] ∨ s.intake.sourceLive = false ∨ s.mech.energyHigh = false) →
      exec .deadTimeExpiry s =
        .next (s.withPart { s.toPart with
          clock := max s.clock e
          seq := { s.seq with
            state := .closeWait, deadTimer := none, closeWaitTimer := some (max s.clock e + 10000) } }))

/-- The close-wait expiry locks out with CLOSE_WAIT_EXPIRED (R60, R62); the reclaim expiry ends the sequence with shots used
0 and RECLOSE_OK (R65). -/
def Obligations.SequencerWaitsEnd : Prop :=
  ∀ (e : Nat) (s : State),
    (s.seq.closeWaitTimer = some e → s.seq.state = .closeWait →
      ∃ t : State, exec .closeWaitExpiry s = .next t ∧ t.clock = max s.clock e ∧
        t.seq =
          { s.seq with
            state := .lockout, deadTimer := none, closeWaitTimer := none, reclaimTimer := none, pendingShot := none
            purpose := .none, forced := none, lockoutReason := some .closeWaitExpired } ∧
        t.toPart = { s.toPart with clock := t.clock, seq := t.seq, notices := t.notices } ∧
        t.notices = (raise .lockout s.toPart).notices) ∧
    (s.seq.reclaimTimer = some e → s.seq.state = .reclaim →
      ∃ t : State, exec .reclaimExpiry s = .next t ∧ t.clock = max s.clock e ∧ t.seq.state = .closed ∧
        t.seq.shotsUsed = 0 ∧ t.seq.reclaimTimer = none ∧
        t.toPart = { s.toPart with clock := t.clock, seq := t.seq, notices := t.notices } ∧
        t.notices = (raise .recloseOk s.toPart).notices)

/-! ## Fault records -/

/-- A record written at a placed trip order takes the next number, becomes the newest of at most sixteen, is PENDING, and
takes the episode with it (R153, R154, R155, R32). -/
def Obligations.RecordWritten : Prop :=
  ∀ (f : TripFields) (p : Part),
    let q := writeRecord f p
    q.records.ring.head? = some (p.newRecord f) ∧ (p.newRecord f).number = p.records.next ∧
    (p.newRecord f).outcome = .pending ∧
    q.records.ring.length = min (p.records.ring.length + 1) 16 ∧ (∀ r ∈ q.records.ring.tail, r ∈ p.records.ring) ∧
    (1 ≤ p.records.next → p.records.next ≤ 65535 → 1 ≤ q.records.next ∧ q.records.next ≤ 65535 ∧
      (q.records.next = p.records.next + 1 ∨ (p.records.next = 65535 ∧ q.records.next = 1))) ∧
    q.records.pendingRecord = some p.records.next ∧ q.elements = { p.elements with episode := none } ∧
    (∀ m : Master, q.pendingFor m .record = true) ∧
    q = { p with records := q.records, elements := q.elements, notices := q.notices }

/-! ## Reclose Blocks -/

/-- PLACE BLOCK of a new OPERATOR entry (R81, R82, R84): with an expiry, clamped to 1440 minutes, it joins the end of the
list timed from now, after a waiting reclose is locked out BLOCKED (R67); without one it takes a stored slot, whose write
the answer waits for (R92, R93); BLOCKS is raised. With five master entries it is LIST_FULL; a kind that the master may not
place is NO_RIGHT, and a HOT_LINE with an expiry OUT_OF_RANGE. A refresh (R83) replaces an OPERATOR entry's expiry where it
stands, releases or takes the slot as the table says, and changes nothing of a HOT_LINE; that BLOCKS is raised only where
the minutes differ is the model's choice, log entry 15. -/
def Obligations.OperatorBlockPlaced : Prop :=
  ∀ (k : LinkId) (m : Master) (kind reason : Byte) (expiry : Half) (s : State), s.toPart.serves k m →
    let r : Request := .placeBlock kind reason expiry
    let p := s.toPart.found k m r
    let runs : Host.Outcome State Fault Refusal := exec (.placeBlock k kind reason expiry) s
    let minutes := min expiry.toNat 1440
    let named (b : BlockKind) (e : BlockEntry) : Bool := e.kind = b && e.owner = .master m && e.reason = reason
    let new := ∀ e ∈ p.entries, named .operator e = false
    let timed : BlockEntry :=
      ⟨.operator, .master m, reason, p.uptime, some minutes, some (p.uptime + 60 * minutes), none⟩
    let put (f : BlockEntry) : Part :=
      { p with entries := p.entries.map fun e => if named .operator e then f else e }
    let write (n : SlotId) (x : Option SlotEntry) (q : Part) : Part := queueWrite (.slot n x) (some k) q
    let stored : SlotEntry := ⟨.operator, .master m, reason⟩
    (kind = 1 → m ≠ .crew → new → masterCount p.entries < 5 →
      (0 < expiry.toNat → p.seq.state ≠ .deadTime → p.seq.state ≠ .closeWait →
        runs =
          .next (s.withPart ((raise .blocks { p with entries := p.entries ++ [timed] }).answer k r
            ⟨.done, 0 :: bytes2 minutes, false⟩))) ∧
      (0 < expiry.toNat → (p.seq.state = .deadTime ∨ p.seq.state = .closeWait) →
        runs =
          .next (s.withPart ((raise .blocks (raise .lockout { p with
            entries := p.entries ++ [timed]
            seq :=
              { p.seq with
                state := .lockout, lockoutReason := some .blocked, deadTimer := none, closeWaitTimer := none
                reclaimTimer := none, pendingShot := none, purpose := .none, forced := none } })).answer k r
            ⟨.done, 0 :: bytes2 minutes, false⟩))) ∧
      (∀ n : SlotId, expiry.toNat = 0 → freeSlot p.entries = some n → p.seq.state ≠ .deadTime →
        p.seq.state ≠ .closeWait →
        runs =
          .next (s.withPart ((raise .blocks (write n (some stored) { p with
            entries := p.entries ++ [⟨.operator, .master m, reason, p.uptime, none, none, some n⟩] })).answer k r
            ⟨.done, [0, 0, 0], true⟩)))) ∧
    (kind = 1 → m ≠ .crew → new → 5 ≤ masterCount p.entries →
      runs = .next (s.withPart (p.answer k r ⟨.listFull, [], false⟩))) ∧
    ((kind = 0 ∧ m = .bay) ∨ (kind = 1 ∧ m = .crew) ∨ 2 ≤ kind.toNat →
      runs = .next (s.withPart (p.answer k r ⟨.noRight, [], false⟩))) ∧
    (kind = 0 → m ≠ .bay → 0 < expiry.toNat →
      runs = .next (s.withPart (p.answer k r ⟨.outOfRange, [], false⟩))) ∧
    (kind = 0 → m ≠ .bay → expiry.toNat = 0 → (∃ e ∈ p.entries, named .hotLine e = true) →
      runs = .next (s.withPart (p.answer k r ⟨.done, [1, 0, 0], false⟩))) ∧
    (∀ e : BlockEntry, kind = 1 → m ≠ .crew → p.entries.find? (named .operator) = some e →
      let later : BlockEntry :=
        { e with expiry := some minutes, moment := some (p.uptime + 60 * minutes), slot := none }
      (∀ old : Nat, e.expiry = some old → 0 < expiry.toNat →
        runs =
          .next (s.withPart ((if old = minutes then put later else raise .blocks (put later)).answer k r
            ⟨.done, 1 :: bytes2 minutes, false⟩))) ∧
      (∀ n : SlotId, e.expiry = none → e.slot = some n → 0 < expiry.toNat →
        runs =
          .next (s.withPart ((raise .blocks (write n none (put later))).answer k r
            ⟨.done, 1 :: bytes2 minutes, true⟩))) ∧
      (∀ (old : Nat) (n : SlotId), e.expiry = some old → freeSlot p.entries = some n → expiry.toNat = 0 →
        runs =
          .next (s.withPart ((raise .blocks
            (write n (some stored) (put { e with expiry := none, moment := none, slot := some n }))).answer k r
            ⟨.done, [1, 0, 0], true⟩))) ∧
      (e.expiry = none → expiry.toNat = 0 →
        runs = .next (s.withPart ((put { e with expiry := none, moment := none }).answer k r ⟨.done, [1, 0, 0], false⟩))))

/-- PLACE BLOCK of a new HOT_LINE (R84, R51, R64, R67, R115, R116, R146). The first, while the Sequencer's close order is on
its stroke, releases the close output and leaves the Sequencer BLOCKED in LOCKOUT; the entry takes a stored slot whose write
is queued, the answer waits, and G3 or FALLBACK is active. In every other state the placement is handed on first: no close
order in progress is nothing to release, DEAD_TIME and CLOSE_WAIT lock out BLOCKED, and any other state of the Sequencer
takes no action. A running hunt is abandoned with HOT_LINE, its own close released first: with the position OPEN the breaker
is handed back in LOCKOUT, otherwise a trip of the Hunt's with an empty cause set is placed, and a trip in progress is waited
on. The entry then joins the list; the first HOT_LINE has Posture recompute, a second one does not (R115). -/
def Obligations.HotLinePlacementReleasesClose : Prop :=
  ∀ (k : LinkId) (m : Master) (reason : Byte) (n : SlotId) (s : State), s.toPart.serves k m → m ≠ .bay →
    let r : Request := .placeBlock 0 reason 0
    let p := s.toPart.found k m r
    masterCount p.entries < 5 →
    (p.mech.order = .close → p.mech.placer = some .sequencer → p.seq.state = .closing → p.hunt.state.running = false →
      (∀ e ∈ p.entries, e.kind ≠ .hotLine) → freeSlot p.entries = some n →
      ∃ t : State, exec (.placeBlock k 0 reason 0) s = .next t ∧
        t.mech.closeOutput = false ∧ t.mech.tripOutput = false ∧ t.mech.order = .none ∧ t.mech.orderTimer = none ∧
        t.seq.state = .lockout ∧ t.seq.lockoutReason = some .blocked ∧
        t.entries = p.entries ++ [⟨.hotLine, .master m, reason, p.uptime, none, none, some n⟩] ∧
        t.posture.hotLinePresent = true ∧ (t.posture.active = .group .g3 ∨ t.posture.active = .fallback) ∧
        t.store.queue = p.store.queue ++ [⟨.slot n (some ⟨.hotLine, .master m, reason⟩), some k⟩] ∧
        (∀ x : Master, t.pendingFor x .blocks = true ∧ t.pendingFor x .lockout = true) ∧
        (t.links.get k).answer = some ⟨[5, 10, 0, 0, 0, 0], true⟩ ∧
        t.elements.closeKind = .none ∧ t.records = p.records ∧ t.hunt = p.hunt ∧ t.intake = p.intake) ∧
    ((∀ e ∈ p.entries, ¬(e.kind = .hotLine ∧ e.owner = .master m ∧ e.reason = reason)) →
      let joined (q : Part) : Part :=
        { q with entries := q.entries ++ [⟨.hotLine, .master m, reason, p.uptime, none, none, some n⟩] }
      let told (q : Part) : Part :=
        if ∀ e ∈ p.entries, e.kind ≠ .hotLine then
          recompute { joined q with posture := { q.posture with hotLinePresent := true } }
        else joined q
      let placed (q : Part) : Prop :=
        exec (.placeBlock k 0 reason 0) s =
          .next (s.withPart ((raise .blocks
            (queueWrite (.slot n (some ⟨.hotLine, .master m, reason⟩)) (some k) (told q))).answer k r
            ⟨.done, [0, 0, 0], true⟩))
      let stroke : Bool := p.mech.order = .close
      let mech : Mechanism :=
        if stroke then
          { p.mech with
            order := .none, placer := none, orderTimer := none, tripOutput := false, closeOutput := false
            travelTimer := if p.position = .travel then some (p.clock + 300) else p.mech.travelTimer }
        else p.mech
      let elements : Elements :=
        { p.elements with
          closeKind := if stroke then .none else p.elements.closeKind
          mode := if stroke then .normal else p.elements.mode }
      let out (why : LockoutReason) : Sequencer :=
        { p.seq with
          state := .lockout, lockoutReason := some why, deadTimer := none, closeWaitTimer := none, reclaimTimer := none
          pendingShot := none, purpose := .none, forced := none }
      (p.hunt.state.running = false → p.mech.order ≠ .close → freeSlot p.entries = some n →
        (p.seq.state ≠ .deadTime → p.seq.state ≠ .closeWait → placed p) ∧
        (p.seq.state = .deadTime ∨ p.seq.state = .closeWait → placed (raise .lockout { p with seq := out .blocked }))) ∧
      (p.hunt.state.running = true → p.seq.state = .huntHeld → (stroke = true → p.mech.placer = some .hunt) →
        freeSlot (p.entries.filter fun e => e.kind ≠ .hunt) = some n →
        let abandoned (q : Part) : Prop :=
          placed q ∧
            q.hunt =
              { p.hunt with
                state := .abandoned, outstanding := none, orderTimer := none, closeWaitTimer := none, closeDue := .none
                handBackPending := q.hunt.handBackPending
                result := some
                  { outcome := .abandoned, reason := .hotLine, detail := none, startedBy := p.hunt.startedBy
                    lo := p.hunt.lo, hi := p.hunt.hi, testsUsed := p.hunt.testsUsed
                    testLimit := p.hunt.testLimit.getD 0, ordersIssued := p.hunt.ordersIssued
                    unusable := p.hunt.unusable } } ∧
            q.entries = p.entries.filter (fun e => e.kind ≠ .hunt) ∧ (∀ x : Master, q.pendingFor x .huntEnd = true) ∧
            q.posture = p.posture ∧ q.intake = p.intake ∧ q.table = p.table ∧ q.links = p.links ∧ q.store = p.store ∧
            q.clock = p.clock
        (p.mech.order ≠ .trip → p.position = .opened → p.seq.failureNoted = false →
          ∃ q : Part, abandoned q ∧ q.mech = mech ∧ q.seq = out .huntEnd ∧ q.records = p.records ∧
            q.elements = { elements with mode := .normal } ∧ ∀ x : Master, q.pendingFor x .lockout = true) ∧
        (p.mech.order ≠ .trip → p.position ≠ .opened →
          ∃ q : Part, abandoned q ∧ q.hunt.handBackPending = true ∧ q.seq = p.seq ∧
            q.mech =
              { mech with
                order := .trip, placer := some .hunt, orderTimer := some (p.clock + 200), tripOutput := true
                travelTimer := none } ∧
            (∃ f : FaultRecord, q.records.ring = (f :: p.records.ring).take 16 ∧ f.number = p.records.next ∧
              f.origin = .hunt ∧ f.causes = {} ∧ f.requester = none ∧ f.shot = 0 ∧ f.outcome = .pending) ∧
            q.records.pendingRecord = some p.records.next ∧ q.elements = { elements with episode := none } ∧
            ∀ x : Master, q.pendingFor x .trip = true ∧ q.pendingFor x .record = true) ∧
        (p.mech.order = .trip → p.position ≠ .opened →
          ∃ q : Part, abandoned q ∧ q.hunt.handBackPending = true ∧ q.seq = p.seq ∧ q.mech = p.mech ∧
            q.records = p.records ∧ q.elements = p.elements)))

/-- An OPERATOR entry leaves the list, by REMOVE BLOCK from LOCAL or CONTROL (R86, R87) or by its expiry (R88), and BLOCKS
is raised; where it held a stored slot the slot's write as EMPTY is queued and the answer waits for it (R87 item 3, R93). A
HOT_LINE leaves it by its owner's REMOVE BLOCK, and with the last one Posture selects afresh (R87 item 2). REMOVE BLOCK of
no such entry is NOT_FOUND, and of a kind or owner that the master may not remove NO_RIGHT. That the clock reaches the
expiry moment is the model's choice, log entry 2. -/
def Obligations.BlockLeavesList : Prop :=
  ∀ (k : LinkId) (m o : Master) (reason : Byte) (s : State), s.toPart.serves k m →
    let r (kind owner : Byte) : Request := .removeBlock kind owner reason
    let found (kind owner : Byte) : Part := s.toPart.found k m (r kind owner)
    let named (b : BlockKind) (x : Master) (e : BlockEntry) : Bool :=
      e.kind = b && e.owner = .master x && e.reason = reason
    let left (b : BlockKind) (x : Master) (p : Part) : List BlockEntry := p.entries.filter fun e => !named b x e
    let write (n : SlotId) (q : Part) : Part := queueWrite (.slot n none) (some k) q
    let own : Byte := byte (Master.code m)
    let other : Byte := byte (Master.code o)
    (m ≠ .crew → (∃ e ∈ (found 1 other).entries, named .operator o e) →
      ((∀ e ∈ (found 1 other).entries, named .operator o e → e.slot = none) →
        exec (.removeBlock k 1 other reason) s =
          .next (s.withPart ((raise .blocks { found 1 other with entries := left .operator o (found 1 other) }).answer k
            (r 1 other) ⟨.done, [], false⟩))) ∧
      (∀ n : SlotId, (∀ e ∈ (found 1 other).entries, named .operator o e → e.slot = some n) →
        exec (.removeBlock k 1 other reason) s =
          .next (s.withPart ((raise .blocks
            (write n { found 1 other with entries := left .operator o (found 1 other) })).answer k (r 1 other)
            ⟨.done, [], true⟩)))) ∧
    (m ≠ .crew → (∀ e ∈ (found 1 other).entries, named .operator o e = false) →
      exec (.removeBlock k 1 other reason) s =
        .next (s.withPart ((found 1 other).answer k (r 1 other) ⟨.notFound, [], false⟩))) ∧
    (∀ n : SlotId, (∃ e ∈ (found 0 own).entries, named .hotLine m e) →
      (∀ e ∈ (found 0 own).entries, named .hotLine m e → e.slot = some n) →
      let p := found 0 own
      let q : Part := { p with entries := left .hotLine m p }
      (hotLineCount p.entries ≠ 1 →
        exec (.removeBlock k 0 own reason) s =
          .next (s.withPart ((raise .blocks (write n q)).answer k (r 0 own) ⟨.done, [], true⟩))) ∧
      (hotLineCount p.entries = 1 →
        exec (.removeBlock k 0 own reason) s =
          .next (s.withPart ((raise .blocks (write n (recompute { q with
            posture := { q.posture with hotLinePresent := false } }))).answer k (r 0 own) ⟨.done, [], true⟩)))) ∧
    (∀ kind owner : Byte, (2 ≤ kind.toNat ∨ (kind = 0 ∧ owner.toNat ≠ Master.code m) ∨ (kind = 1 ∧ m = .crew)) →
      exec (.removeBlock k kind owner reason) s =
        .next (s.withPart ((found kind owner).answer k (r kind owner) ⟨.noRight, [], false⟩))) ∧
    (∀ e : Nat, (∃ x ∈ s.entries, named .operator o x) →
      (∀ x ∈ s.entries, named .operator o x → x.moment = some e ∧ x.slot = none) →
      exec (.blockExpiry o reason) s =
        .next (s.withPart (raise .blocks { s.toPart with
          clock := max s.clock (e * 1000), entries := left .operator o s.toPart })))

/-! ## Settings and posture -/

/-- Every step keeps the effective level, the wanted group and the active settings those that the inputs and the groups give
(R114, R116, R118). -/
def Obligations.SelectionStaysTrue : Prop :=
  ∀ s t : State, SelectionStands s.posture → step s = .next t → SelectionStands t.posture

/-- A recomputation (R116, R118): the active settings are the first READY group from the wanted one upward, or FALLBACK; G3
or FALLBACK with a HOT_LINE present; G2, G3 or FALLBACK at BAN; POSTURE is pending if the level or the active settings
moved, and nothing else changes if neither did; a change to BAN locks out a waiting reclose with FIRE_BAN (R68), and abandons a
running hunt with FIRE_BAN and an empty cause set, before the settings are handed on (R145, R146, R118). A change of
the active settings that brings no BAN stops the cold-load window under a multiplier of 100 and leaves it otherwise (R29);
in DEAD_TIME and CLOSE_WAIT it cuts the pending shot with SETTINGS, or times its dead time afresh from the opening moment,
taking an elapsed one at once in DEAD_TIME (R69, R61, R63); in RECLAIM it times the reclaim afresh from the close moment
(R70, R65); in every other state the Sequencer stays as it is. That the pending shot is none once a close is accepted is the
model's choice, log entry 13. -/
def Obligations.SelectionRecomputed : Prop :=
  ∀ p : Part,
    let q := recompute p
    q.posture = p.posture.select ∧
    (∀ g : GroupId, q.posture.active = .group g →
      (q.posture.groups.get g).state = .ready ∧ GroupId.code q.posture.wanted ≤ GroupId.code g ∧
      ∀ h : GroupId, GroupId.code q.posture.wanted ≤ GroupId.code h → GroupId.code h < GroupId.code g →
        (q.posture.groups.get h).state ≠ .ready) ∧
    (q.posture.active = .fallback →
      ∀ h : GroupId, GroupId.code q.posture.wanted ≤ GroupId.code h → (q.posture.groups.get h).state ≠ .ready) ∧
    (q.posture.hotLinePresent = true → q.posture.active = .group .g3 ∨ q.posture.active = .fallback) ∧
    (q.posture.level = .ban →
      q.posture.active = .group .g2 ∨ q.posture.active = .group .g3 ∨ q.posture.active = .fallback) ∧
    (q.posture.level = p.posture.level → q.posture.active = p.posture.active → q = { p with posture := q.posture }) ∧
    (q.posture.level ≠ p.posture.level ∨ q.posture.active ≠ p.posture.active →
      ∀ m : Master, q.pendingFor m .posture = true) ∧
    (q.posture.level = .ban → p.posture.level ≠ .ban → (p.seq.state = .deadTime ∨ p.seq.state = .closeWait) →
      p.hunt.state.running = false →
      q.seq.state = .lockout ∧ q.seq.lockoutReason = some .fireBan ∧ q.mech = p.mech) ∧
    (q.posture.level = .ban → p.posture.level ≠ .ban → p.heldByHunt →
      ∃ r : Part, HuntAbandoned .fireBan none {} none { p with posture := p.posture.select } r ∧
        q =
          raise .posture
            (if q.posture.active = p.posture.active then r
             else
              { r with
                elements := { r.elements with
                  coldLoad :=
                    if q.settings.coldLoadMultiplier.getD 0 = 100 then none else r.elements.coldLoad } })) ∧
    (q.posture.active ≠ p.posture.active → (q.posture.level = p.posture.level ∨ q.posture.level ≠ .ban) →
      let new := q.settings
      let elements : Elements :=
        { p.elements with coldLoad := if new.coldLoadMultiplier.getD 0 = 100 then none else p.elements.coldLoad }
      let becomes (seq : Sequencer) : Prop :=
        q = { p with posture := q.posture, elements := elements, seq := seq, notices := q.notices }
      let idle : Sequencer :=
        { p.seq with
          deadTimer := none, closeWaitTimer := none, reclaimTimer := none, pendingShot := none, purpose := .none
          forced := none }
      (p.seq.state ≠ .deadTime → p.seq.state ≠ .closeWait → p.seq.state ≠ .reclaim → becomes p.seq) ∧
      (∀ k opened : Nat, p.seq.state = .deadTime ∨ p.seq.state = .closeWait → p.seq.pendingShot = some k →
        p.seq.openingMoment = some opened →
        (new.shots.getD 0 < k →
          becomes { idle with state := .lockout, lockoutReason := some .settings } ∧
            ∀ m : Master, q.pendingFor m .lockout = true) ∧
        (k ≤ new.shots.getD 0 → opened + new.deadTime k ≤ p.clock →
          (p.seq.state = .closeWait → becomes p.seq) ∧
          (p.seq.state = .deadTime → (p.entries ≠ [] ∨ p.intake.sourceLive = false ∨ p.mech.energyHigh = false) →
            becomes
              { p.seq with state := .closeWait, deadTimer := none, closeWaitTimer := some (p.clock + 10000) }) ∧
          (p.seq.state = .deadTime → p.entries = [] → p.intake.sourceLive = true → p.mech.energyHigh = true →
            p.mech.order = .none → p.position = .opened →
            q =
              { p with
                posture := q.posture
                notices := q.notices
                mech :=
                  { p.mech with
                    order := .close, placer := some .sequencer, orderTimer := some (p.clock + 300), closeOutput := true
                    travelTimer := none }
                elements := { elements with closeKind := .automatic }
                seq :=
                  { p.seq with
                    state := .closing, shotsUsed := k, pendingShot := none, purpose := .automatic, deadTimer := none
                    closeWaitTimer := none } })) ∧
        (k ≤ new.shots.getD 0 → p.clock < opened + new.deadTime k →
          becomes
            { p.seq with
              state := .deadTime, deadTimer := some (opened + new.deadTime k), closeWaitTimer := none })) ∧
      (∀ closed : Nat, p.seq.state = .reclaim → p.seq.closeMoment = some closed →
        (closed + new.reclaimTime.getD 0 * 1000 ≤ p.clock →
          becomes { idle with state := .closed, shotsUsed := 0 } ∧ ∀ m : Master, q.pendingFor m .recloseOk = true) ∧
        (p.clock < closed + new.reclaimTime.getD 0 * 1000 →
          becomes { p.seq with reclaimTimer := some (closed + new.reclaimTime.getD 0 * 1000) })))

/-- The inputs of the fire level (R108 to R112): SET SEASON, DECLARE FIRE LEVEL, RAISE and CLEAR LOCAL LEVEL, and the
expiries of the declaration and of the silence timer set their input, selection is recomputed, and the request is answered.
That the clock reaches the expiries' moments is the model's choice, log entry 2. -/
def Obligations.FireLevelInputsTaken : Prop :=
  (∀ (k : LinkId) (m : Master) (x : Season) (s : State), s.toPart.serves k m → m ≠ .crew →
    let r : Request := .setSeason (byte x.code)
    let p := s.toPart.found k m r
    (x = p.posture.season →
      exec (.setSeason k (byte x.code)) s = .next (s.withPart (p.answer k r ⟨.done, [], false⟩))) ∧
    (x ≠ p.posture.season →
      exec (.setSeason k (byte x.code)) s =
        .next (s.withPart ((recompute
          (queueWrite (.season x) (some k) { p with posture := { p.posture with season := x } })).answer k r
          ⟨.done, [], true⟩)))) ∧
  (∀ (k : LinkId) (hours : Byte) (x : Level) (s : State), s.toPart.serves k .control →
    let r : Request := .declareFireLevel (byte x.code) hours
    let p := s.toPart.found k .control r
    let applied := min hours.toNat 72
    (x = .none →
      exec (.declareFireLevel k (byte x.code) hours) s =
        .next (s.withPart ((recompute
          { p with posture := { p.posture with declared := .none, declaredExpiry := none } }).answer k r
          ⟨.done, [0], false⟩))) ∧
    (x ≠ .none → hours = 0 →
      exec (.declareFireLevel k (byte x.code) hours) s = .next (s.withPart (p.answer k r ⟨.outOfRange, [], false⟩))) ∧
    (x ≠ .none → hours ≠ 0 →
      exec (.declareFireLevel k (byte x.code) hours) s =
        .next (s.withPart ((recompute
          { p with posture := { p.posture with
            declared := x, declaredExpiry := some (p.uptime + 3600 * applied) } }).answer k r
          ⟨.done, [byte applied], false⟩)))) ∧
  (∀ (k : LinkId) (x : Level) (s : State), s.toPart.serves k .bay →
    let r : Request := .raiseLocalLevel (byte x.code)
    let p := s.toPart.found k .bay r
    (x = .none →
      exec (.raiseLocalLevel k (byte x.code)) s = .next (s.withPart (p.answer k r ⟨.outOfRange, [], false⟩))) ∧
    (x ≠ .none → p.posture.localRaise.code < x.code →
      exec (.raiseLocalLevel k (byte x.code)) s =
        .next (s.withPart ((recompute { p with posture := { p.posture with localRaise := x } }).answer k r
          ⟨.done, [0], false⟩))) ∧
    (x ≠ .none → x.code ≤ p.posture.localRaise.code →
      exec (.raiseLocalLevel k (byte x.code)) s = .next (s.withPart (p.answer k r ⟨.done, [1], false⟩)))) ∧
  (∀ (k : LinkId) (s : State), s.toPart.serves k .bay →
    let p := s.toPart.found k .bay .clearLocalLevel
    (p.posture.localRaise = .none →
      exec (.clearLocalLevel k) s = .next (s.withPart (p.answer k .clearLocalLevel ⟨.done, [1], false⟩))) ∧
    (p.posture.localRaise ≠ .none →
      exec (.clearLocalLevel k) s =
        .next (s.withPart ((recompute { p with posture := { p.posture with localRaise := .none } }).answer k
          .clearLocalLevel ⟨.done, [2], false⟩)))) ∧
  (∀ (e : Nat) (s : State),
    (s.posture.declaredExpiry = some e →
      exec .declarationExpiry s =
        .next (s.withPart (recompute { s.toPart with
          clock := max s.clock (e * 1000)
          posture := { s.posture with declared := .none, declaredExpiry := none } }))) ∧
    (s.posture.silenceTimer = some e →
      exec .silenceTimerExpiry s =
        .next (s.withPart (recompute { s.toPart with
          clock := max s.clock e
          posture := { s.posture with silent := true, silenceTimer := none } }))))

/-- WRITE SETTING to a group (R96, R97, R99, R100): a value in the field's range, a multiple of 10 in fields 5 and 10, goes into
the one field of the working record, a 0 making a dead time absent. The record begins as the default record in an EMPTY group
and as the confirmed image in a READY one. The group is EDITING and SETTINGS is raised, and where the selection stands it is not
moved; the active group is GROUP_ACTIVE; FALLBACK, an unknown target or a value out of range is OUT_OF_RANGE. WRITE SETTING to
POSTURE (R113): field 1 takes 1 to 120 minutes as the silence time, SETTINGS is raised and nothing else moves, a running silence
timer among them; any other field or value is OUT_OF_RANGE. CONFIRM GROUP (R102, R103, R104) by the group's state: an EDITING
group that fails one of the six checks is CHECK_FAILED with the first that it fails and the lowest field that fails it, one that
passes them all is READY, its image is queued and selection is recomputed; a group beyond G3 is OUT_OF_RANGE. -/
def Obligations.GroupsWrittenAndConfirmed : Prop :=
  ∀ (k : LinkId) (m : Master) (g : GroupId) (s : State), s.toPart.serves k m → m ≠ .crew →
    (∀ (number : Byte) (value : Long),
      let r : Request := .writeSetting (byte (GroupId.code g)) number value
      let c : Instr := .writeSetting k (byte (GroupId.code g)) number value
      let p := s.toPart.found k m r
      let old := p.posture.groups.get g
      let ranges : List (Nat × Nat × Nat) :=
        [(1, 100, 20000), (2, 1, 4), (3, 5, 150), (4, 0, 60000), (5, 0, 500), (6, 500, 50000), (7, 1, 4), (8, 5, 150),
          (9, 100, 5000), (10, 100, 60000), (11, 0, 3), (12, 300, 180000), (13, 300, 180000), (14, 300, 180000),
          (15, 5, 300), (16, 100, 300), (17, 60, 3600), (18, 1, 600), (19, 200, 10000), (20, 0, 1), (21, 1, 6)]
      let deadTime : Prop := 12 ≤ number.toNat ∧ number.toNat ≤ 14
      let accepts : Prop :=
        (deadTime ∧ value = 0) ∨
          ∃ lo hi : Nat, (number.toNat, lo, hi) ∈ ranges ∧ lo ≤ value.toNat ∧ value.toNat ≤ hi ∧
            (number = 5 ∨ number = 10 → value.toNat % 10 = 0)
      let begins (b : Settings) : Prop :=
        (old.state = .empty ∧
          b = ⟨none, some 1, some 100, some 0, some 0, none, some 1, some 100, none, none, some 0, none, none, none,
            some 30, some 100, some 600, some 10, some 1000, some 0, some 4⟩) ∨
        (old.state = .editing ∧ old.working = some b) ∨ (old.state = .ready ∧ old.image = some b)
      (∀ b : Settings, begins b → accepts → p.posture.active ≠ .group g → SelectionStands p.posture →
        ∃ w : Settings,
          exec c s =
            .next (s.withPart ((raise .settings { p with posture := { p.posture with
              groups := p.posture.groups.set g { old with state := .editing, working := some w } } }).answer k r
              ⟨.done, [], false⟩)) ∧
          (deadTime → value = 0 → w.field number.toNat = none) ∧
          (¬(deadTime ∧ value = 0) → w.field number.toNat = some value.toNat) ∧
          (∀ j : Nat, j ≠ number.toNat → w.field j = b.field j)) ∧
      (accepts → p.posture.active = .group g →
        exec c s = .next (s.withPart (p.answer k r ⟨.groupActive, [], false⟩))) ∧
      (¬accepts → exec c s = .next (s.withPart (p.answer k r ⟨.outOfRange, [], false⟩)))) ∧
    (∀ (target number : Byte) (value : Long), target = 4 ∨ 5 < target.toNat →
      let r : Request := .writeSetting target number value
      exec (.writeSetting k target number value) s =
        .next (s.withPart ((s.toPart.found k m r).answer k r ⟨.outOfRange, [], false⟩))) ∧
    (∀ (number : Byte) (value : Long),
      let r : Request := .writeSetting 5 number value
      let c : Instr := .writeSetting k 5 number value
      let p := s.toPart.found k m r
      (number = 1 → 1 ≤ value.toNat → value.toNat ≤ 120 →
        exec c s =
          .next (s.withPart ((raise .settings { p with posture := { p.posture with
            silenceMinutes := value.toNat } }).answer k r ⟨.done, [], false⟩))) ∧
      (number ≠ 1 ∨ value.toNat = 0 ∨ 120 < value.toNat →
        exec c s = .next (s.withPart (p.answer k r ⟨.outOfRange, [], false⟩)))) ∧
    (∀ group : Byte, 4 ≤ group.toNat →
      let r : Request := .confirmGroup group
      exec (.confirmGroup k group) s =
        .next (s.withPart ((s.toPart.found k m r).answer k r ⟨.outOfRange, [], false⟩))) ∧
    (let r : Request := .confirmGroup (byte (GroupId.code g));
      let c : Instr := .confirmGroup k (byte (GroupId.code g));
      let p := s.toPart.found k m r;
      let old := p.posture.groups.get g;
      (old.state = .empty → exec c s = .next (s.withPart (p.answer k r ⟨.checkFailed, [1, 1], false⟩))) ∧
      (old.state = .ready → exec c s = .next (s.withPart (p.answer k r ⟨.done, [1], false⟩))) ∧
      (∀ w : Settings, old.state = .editing → old.working = some w →
        let failed (check number : Nat) : Prop :=
          exec c s = .next (s.withPart (p.answer k r ⟨.checkFailed, [byte check, byte number], false⟩))
        let needed (j : Nat) : Prop := 1 ≤ j ∧ j ≤ 21 ∧ ¬(12 ≤ j ∧ j ≤ 14)
        let dead (j : Nat) : Prop := 12 ≤ j ∧ j ≤ 14 ∧ j ≤ 11 + w.shots.getD 0
        let one : Prop := ∀ j : Nat, needed j → w.field j ≠ none
        let two : Prop := w.highsetLevel.getD 0 = 0 ∨ w.phasePickup.getD 0 < w.highsetLevel.getD 0
        let three : Prop := w.sefPickup.getD 0 < w.earthPickup.getD 0
        let four : Prop := ∀ j : Nat, dead j → w.field j ≠ none
        let five : Prop :=
          g = .g2 ∨ g = .g3 → w.shots = some 0 ∧ w.autoHunt = some 0 ∧ w.coldLoadMultiplier = some 100
        let six : Prop := g = .g1 → w.shots.getD 0 ≤ 1
        (∀ j : Nat, needed j → w.field j = none → (∀ i : Nat, needed i → i < j → w.field i ≠ none) → failed 1 j) ∧
        (one → ¬two → failed 2 0) ∧ (one → two → ¬three → failed 3 0) ∧
        (∀ j : Nat, one → two → three → dead j → w.field j = none →
          (∀ i : Nat, dead i → i < j → w.field i ≠ none) → failed 4 j) ∧
        (one → two → three → four → ¬five → failed 5 0) ∧ (one → two → three → four → ¬six → failed 6 0) ∧
        (one → two → three → four → five → six →
          ∃ t : State, exec c s = .next t ∧ t.posture.groups.get g = ⟨.ready, some w, some w⟩ ∧
            t.store.queue = p.store.queue ++ [⟨.group g (some w), some k⟩] ∧
            (∀ x : Master, t.pendingFor x .settings = true) ∧
            (t.links.get k).answer = some ⟨[3, 15, 0, 0], true⟩ ∧
            (∀ h : GroupId, h ≠ g → t.posture.groups.get h = p.posture.groups.get h) ∧
            t.toPart =
              (raise .settings (recompute (queueWrite (.group g (some w)) (some k) { p with posture := { p.posture with
                groups := p.posture.groups.set g ⟨.ready, some w, some w⟩ } }))).answer k r ⟨.done, [0], true⟩)))

/-! ## Earth-fault hunt -/

/-- WRITE SECTION (R123) and CONFIRM SECTIONS (R124): a header or an entry written, the table EDITING; refused out of range,
and, header or entry, while a hunt runs; an EDITING table that fails a check is CHECK_FAILED with the first check that fails
and its position, and one whose checks pass is READY and its image is queued. -/
def Obligations.SectionTableWrittenAndConfirmed : Prop :=
  ∀ (k : LinkId) (s : State), s.toPart.serves k .control →
    (∀ (target first : Byte) (second : Half),
      let r : Request := .writeSection target first second
      let c : Instr := .writeSection k target first second
      let p := s.toPart.found k .control r
      (target = 0 → 1 ≤ first.toNat → first.toNat ≤ 15 → 30 ≤ second.toNat → p.hunt.state.running = false →
        exec c s =
          .next (s.withPart ({ p with table := { p.table.base with
            state := .editing, n := some first.toNat, timeout := some (min second.toNat 600) } }.answer k r
            ⟨.done, first :: bytes2 (min second.toNat 600), false⟩))) ∧
      (1 ≤ target.toNat → target.toNat ≤ 15 → first.toNat ≤ 254 → second.toNat ≤ 1 → p.hunt.state.running = false →
        exec c s =
          .next (s.withPart ({ p with table := { p.table.base with
            state := .editing
            switches := p.table.base.switches.set (target.toNat - 1)
              ⟨if first = 0 then none else some first.toNat, decide (second = 1), .unknown⟩ } }.answer k r
            ⟨.done, first :: bytes2 second.toNat, false⟩))) ∧
      ((target = 0 ∧ (first = 0 ∨ 15 < first.toNat ∨ second.toNat < 30)) ∨
          (1 ≤ target.toNat ∧ target.toNat ≤ 15 ∧ (first = 255 ∨ 1 < second.toNat)) ∨ 15 < target.toNat →
        exec c s = .next (s.withPart (p.answer k r ⟨.outOfRange, [], false⟩))) ∧
      ((target = 0 ∧ 1 ≤ first.toNat ∧ first.toNat ≤ 15 ∧ 30 ≤ second.toNat) ∨
          (1 ≤ target.toNat ∧ target.toNat ≤ 15 ∧ first.toNat ≤ 254 ∧ second.toNat ≤ 1) → p.hunt.state.running = true →
        exec c s = .next (s.withPart (p.answer k r ⟨.wrongState, [4], false⟩)))) ∧
    (let p := s.toPart.found k .control .confirmSections;
      let ident (j : Nat) : Option Nat := (p.table.switch j).ident;
      let failed (check position : Byte) : Prop :=
        exec (.confirmSections k) s =
          .next (s.withPart (p.answer k .confirmSections ⟨.checkFailed, [check, position], false⟩));
      (p.table.state = .ready →
        exec (.confirmSections k) s = .next (s.withPart (p.answer k .confirmSections ⟨.done, [1], false⟩))) ∧
      (p.table.state = .empty →
        exec (.confirmSections k) s = .next (s.withPart (p.answer k .confirmSections ⟨.checkFailed, [1, 0], false⟩))) ∧
      (p.table.state = .editing → p.table.failingCheck = none →
        exec (.confirmSections k) s =
          .next (s.withPart ((queueWrite (.sections (some p.table.toImage)) (some k)
            { p with table := { p.table with state := .ready, image := some p.table.toImage } }).answer k .confirmSections
            ⟨.done, [0], true⟩))) ∧
      (p.table.state = .editing → p.table.n = none → failed 1 0) ∧
      (∀ n : Nat, p.table.state = .editing → p.table.n = some n →
        (∀ j : Nat, 1 ≤ j → j ≤ n → ident j = none → (∀ i : Nat, 1 ≤ i → i < j → ident i ≠ none) → failed 2 (byte j)) ∧
        ((∀ j : Nat, 1 ≤ j → j ≤ n → ident j ≠ none) →
          (∀ i j : Nat, 1 ≤ i → i < j → j ≤ n → ident i = ident j →
            (∀ a b : Nat, 1 ≤ a → a < b → b < j → ident a ≠ ident b) → failed 3 (byte j)) ∧
          ((∀ a b : Nat, 1 ≤ a → a < b → b ≤ n → ident a ≠ ident b) → p.table.failingCheck = none))))

/-- START HUNT (R128, R130, R131, R132): with every start condition met, the breaker OPEN and a switch to probe, the hunt is
running, HUNT stands in the list, the Sequencer is HUNT_HELD, and the switch nearest the middle, the lower on a tie, is
ordered OPEN; with no switch to probe, or no tests allowed, restoration is entered at once (R131, R142, R144). The first of
the ten conditions that is not met refuses with WRONG_STATE and its reason: NOT_LOCKOUT, HUNT_RUNNING, TABLE_NOT_READY,
SWITCH_NOT_CLOSED, HOT_LINE, MECHANISM_BLOCKED, MEASURE_LOST, FIRE_BAN, CONTROL_SILENT, ENERGY_LOW. -/
def Obligations.HuntStartOrdersProbe : Prop :=
  ∀ (k : LinkId) (m : Master) (n q limit : Nat) (s : State), s.toPart.serves k m → m ≠ .crew →
    let p := s.toPart.found k m .startHunt
    (p.seq.state = .lockout → p.hunt.state.running = false → p.table.state = .ready → p.table.n = some n →
      (∀ j : Nat, 1 ≤ j → j ≤ n → p.believed j = .closed) → p.hasBlock .hotLine = false →
      p.hasBlock .mechanism = false → p.hasBlock .measure = false → p.posture.level ≠ .ban → p.posture.silent = false →
      p.mech.energyHigh = true → p.position = .opened → p.settings.huntTestLimit = some limit → 0 < limit →
      p.hasBlock .hunt = false →
      1 ≤ q → q ≤ n → (p.table.switch q).operable = true →
      (∀ j : Nat, 1 ≤ j → j ≤ n → (p.table.switch j).operable = true →
        probeScore 0 n q < probeScore 0 n j ∨ (probeScore 0 n q = probeScore 0 n j ∧ q ≤ j)) →
      ∃ t : State, exec (.startHunt k) s = .next t ∧ t.hunt.state = .ordering ∧ t.hunt.lo = 0 ∧ t.hunt.hi = n ∧
        t.hunt.probe = some q ∧ t.hunt.testsUsed = 0 ∧ t.hunt.testLimit = some limit ∧
        t.hunt.testPickup = p.settings.sefPickup ∧ t.hunt.unusable = 0 ∧ t.hunt.startedBy = starterOf m ∧
        t.hunt.outstanding = some ⟨p.hunt.nextOrder, q, (p.table.switch q).ident.getD 0, .openSwitch⟩ ∧
        t.hunt.nextOrder = p.hunt.nextOrder + 1 ∧ t.hunt.ordersIssued = 1 ∧
        t.hunt.orderTimer = some (p.clock + p.table.timeout.getD 0 * 1000) ∧
        t.seq.state = .huntHeld ∧ t.seq.failureNoted = false ∧ t.toPart.hasBlock .hunt = true ∧
        t.pendingFor .control .huntOrder = true ∧ (∀ x : Master, t.pendingFor x .blocks = true) ∧
        (t.links.get k).answer = some ⟨[2, 24, 0], false⟩ ∧ t.mech = p.mech ∧ t.table = p.table ∧
        t.posture = p.posture ∧ t.intake = p.intake ∧ t.elements = p.elements ∧ t.records = p.records ∧
        t.store = p.store) ∧
    (p.seq.state = .lockout → p.hunt.state.running = false → p.table.state = .ready →
      (∀ j : Nat, 1 ≤ j → j ≤ p.table.n.getD 0 → p.believed j = .closed) → p.hasBlock .hotLine = false →
      p.hasBlock .mechanism = false → p.hasBlock .measure = false → p.posture.level ≠ .ban → p.posture.silent = false →
      p.mech.energyHigh = true → p.position = .opened → p.mech.order = .none → p.hasBlock .hunt = false →
      ∃ t : Part, exec (.startHunt k) s = .next (s.withPart (t.answer k .startHunt ⟨.done, [], false⟩)) ∧
        Planned
          (raise .blocks { p with
            hunt := { p.hunt with
              state := .ordering, startedBy := starterOf m, lo := 0, hi := p.table.n.getD 0, testsUsed := 0
              ordersIssued := 0, unusable := 0, handBackPending := false, testLimit := p.settings.huntTestLimit
              testPickup := p.settings.sefPickup }
            entries := p.entries ++ [⟨.hunt, .part, 0, p.uptime, none, none, none⟩]
            seq := { p.seq with state := .huntHeld, failureNoted := false } }) t) ∧
    (let refused (why : Byte) : Prop :=
        exec (.startHunt k) s = .next (s.withPart (p.answer k .startHunt ⟨.wrongState, [why], false⟩));
      let two := p.seq.state = .lockout ∧ p.hunt.state.running = false;
      let four := two ∧ p.table.state = .ready ∧ ∀ j : Nat, 1 ≤ j → j ≤ p.table.n.getD 0 → p.believed j = .closed;
      let seven := four ∧ p.hasBlock .hotLine = false ∧ p.hasBlock .mechanism = false ∧ p.hasBlock .measure = false;
      (p.seq.state ≠ .lockout → refused 3) ∧
      (p.seq.state = .lockout → p.hunt.state.running = true → refused 4) ∧
      (two → p.table.state ≠ .ready → refused 10) ∧
      (∀ j : Nat, two → p.table.state = .ready → 1 ≤ j → j ≤ p.table.n.getD 0 → p.believed j ≠ .closed → refused 11) ∧
      (four → p.hasBlock .hotLine = true → refused 5) ∧
      (four → p.hasBlock .hotLine = false → p.hasBlock .mechanism = true → refused 6) ∧
      (four → p.hasBlock .hotLine = false → p.hasBlock .mechanism = false → p.hasBlock .measure = true → refused 7) ∧
      (seven → p.posture.level = .ban → refused 12) ∧
      (seven → p.posture.level ≠ .ban → p.posture.silent = true → refused 13) ∧
      (seven → p.posture.level ≠ .ban → p.posture.silent = false → p.mech.energyHigh = false → refused 8))

/-- A running hunt with the breaker OPEN and no close order of its own is abandoned by ABORT HUNT, by its order timer and by
its close-wait timer (R145, R146, R148, R76, R136, R137): the result is written, HUNT leaves the list, HUNT_END is pending,
and the breaker is handed back in LOCKOUT. In any other position, or with the Hunt's close or trip in progress, each of the
three trips, pulls its close or waits on its trip as R146 says, ABORT HUNT with the cause MANUAL and its master. ABORT HUNT
with no hunt running is NOT_RUNNING (R149). That the clock reaches a timer's end is the model's choice, log entry 2. -/
def Obligations.OpenHuntAbandoned : Prop :=
  let waits (p : Part) : Prop :=
    p.hunt.state.running = true ∧ p.position = .opened ∧ p.mech.order = .none ∧ p.seq.failureNoted = false
  let ended (reason : HuntReason) (detail : Option HuntDetail) (p : Part) (t : State) : Prop :=
    t.hunt.state = .abandoned ∧ t.hunt.outstanding = none ∧ t.hunt.orderTimer = none ∧ t.hunt.closeWaitTimer = none ∧
      t.hunt.closeDue = .none ∧ t.toPart.hasBlock .hunt = false ∧
      t.hunt.result = some
        { outcome := .abandoned, reason := reason, detail := detail, startedBy := p.hunt.startedBy, lo := p.hunt.lo
          hi := p.hunt.hi, testsUsed := p.hunt.testsUsed, testLimit := p.hunt.testLimit.getD 0
          ordersIssued := p.hunt.ordersIssued, unusable := p.hunt.unusable } ∧
      t.seq.state = .lockout ∧ t.seq.lockoutReason = some .huntEnd ∧
      (∀ x : Master, t.pendingFor x .huntEnd = true ∧ t.pendingFor x .lockout = true) ∧
      t.mech = p.mech ∧ t.records = p.records ∧ t.posture = p.posture ∧ t.intake = p.intake ∧ t.store = p.store
  (∀ (k : LinkId) (m : Master) (s : State), s.toPart.serves k m →
    let p := s.toPart.found k m .abortHunt
    (waits p → ∃ t : State, exec (.abortHunt k) s = .next t ∧ ended .aborted (some (.master m)) p t ∧
      t.table = p.table ∧ (t.links.get k).answer = some ⟨[2, 25, 0], false⟩) ∧
    (p.heldByHunt →
      ∃ q : Part, exec (.abortHunt k) s = .next (s.withPart (q.answer k .abortHunt ⟨.done, [], false⟩)) ∧
        HuntAbandoned .aborted (some (.master m)) { manual := true } (some m) p q) ∧
    (p.hunt.state.running = false →
      exec (.abortHunt k) s = .next (s.withPart (p.answer k .abortHunt ⟨.wrongState, [14], false⟩)))) ∧
  (∀ (e : Nat) (o : SwitchOrder) (s : State), waits s.toPart →
    (s.hunt.orderTimer = some e → s.hunt.outstanding = some o → 1 ≤ o.position → o.position ≤ s.table.switches.length →
      ∃ t : State, exec .orderTimerExpiry s = .next t ∧ ended .orderTimeout none s.toPart t ∧
        t.clock = max s.clock e ∧ t.believed o.position = .unknown ∧
        (∀ j : Nat, j ≠ o.position → t.table.switch j = s.table.switch j)) ∧
    (s.hunt.closeWaitTimer = some e →
      ∃ t : State, exec .huntCloseWaitExpiry s = .next t ∧ ended .closeWaitExpired none s.toPart t ∧
        t.clock = max s.clock e ∧ t.table = s.table)) ∧
  (∀ (e : Nat) (s : State), s.toPart.heldByHunt →
    (∀ o : SwitchOrder, s.hunt.orderTimer = some e → s.hunt.outstanding = some o →
      ∃ q : Part, exec .orderTimerExpiry s = .next (s.withPart q) ∧
        HuntAbandoned .orderTimeout none {} none
          { s.toPart with
            clock := max s.clock e
            table := { s.table with
              switches := s.table.switches.modify (o.position - 1) fun x => { x with believed := .unknown } } } q) ∧
    (s.hunt.closeWaitTimer = some e →
      ∃ q : Part, exec .huntCloseWaitExpiry s = .next (s.withPart q) ∧
        HuntAbandoned .closeWaitExpired none {} none { s.toPart with clock := max s.clock e } q))

/-- REPORT SWITCH (R126, R187): out of range, not held, a report of no order with no hunt running, and a report of an order
that is not outstanding, which sets the believed state all the same; one that names the outstanding order and another switch
is OUT_OF_RANGE. An answer to the outstanding order (R134) that completes it brings the next order of the configuration or
of restoration (R132, R142), or the close due, placed at once or waited for 10 s (R137, R138, R143); an OPEN that failed in
ORDERING marks the switch unusable and the probe is chosen again (R131); a failed order is otherwise SWITCH_FAILED. An
order due with the breaker not OPEN is POSITION_NOT_OPEN, and one to a switch that CONTROL cannot operate SWITCH_NOT_OPERABLE;
a close that Mechanism refuses is CLOSE_REFUSED with its reason (R132, R138, R143). A report
of no order that takes a switch out of its required state abandons with SWITCH_DISTURBED (R135), and trips a closed breaker
(R146); any other sets the believed state alone. That close due is NONE once the close of restoration has been accepted is
the model's reading, log entry 14 (R138 says it of the test close), and that a TOO_LATE report derives no order, though R132
says "whenever", is the model's choice, log entry 33. -/
def Obligations.SwitchReportTaken : Prop :=
  ∀ (k : LinkId) (ident state : Byte) (reference : Half) (s : State), s.toPart.serves k .control →
    let r : Request := .reportSwitch ident state reference
    let p := s.toPart.found k .control r
    let runs : Host.Outcome State Fault Refusal := exec (.reportSwitch k ident state reference) s
    let held (j : Nat) : Bool := 1 ≤ j && j ≤ p.table.n.getD 0 && (p.table.switch j).ident = some ident.toNat
    let told : Believed := if state = 0 then .opened else if state = 1 then .closed else .unknown
    let now (j : Nat) : Believed := if held j then told else p.believed j
    let reported (u : SectionTable) : Prop :=
      u = { p.table with switches := u.switches } ∧
        ∀ j : Nat, 1 ≤ j → j ≤ p.table.switches.length →
          u.switch j = { p.table.switch j with believed := now j }
    let set (t : State) : Prop := t.toPart = { p with table := t.table, links := t.links } ∧ reported t.table
    let valid : Prop := state.toNat ≤ 2 ∧ ident ≠ 0 ∧ ident ≠ 255
    let taken (code : Byte) (t : State) : Prop :=
      runs = .next t ∧ reported t.table ∧ (t.links.get k).answer = some ⟨[2, 27, code], false⟩
    (2 < state.toNat ∨ ident = 0 ∨ ident = 255 → runs = .next (s.withPart (p.answer k r ⟨.outOfRange, [], false⟩))) ∧
    (valid → (∀ j : Nat, held j = false) → runs = .next (s.withPart (p.answer k r ⟨.notFound, [], false⟩))) ∧
    (valid → (∃ j : Nat, held j) →
      (∀ o : SwitchOrder, p.hunt.outstanding = some o → o.number.toNat = reference.toNat → o.ident ≠ ident.toNat →
        runs = .next (s.withPart (p.answer k r ⟨.outOfRange, [], false⟩))) ∧
      (255 < reference.toNat → p.hunt.state.running = false → ∃ t : State, taken 0 t ∧ set t) ∧
      (reference.toNat ≤ 255 → (∀ o : SwitchOrder, p.hunt.outstanding = some o → o.number.toNat ≠ reference.toNat) →
        ∃ t : State, taken 6 t ∧ set t) ∧
      (p.table.n.getD 0 ≤ p.table.switches.length →
        let h := p.hunt
        let done : Hunt := { h with outstanding := none, orderTimer := none }
        let closedBelow (m : Nat) : Prop := ∀ j : Nat, 1 ≤ j → j < m → now j = .closed
        let due : CloseDue := if h.state = .restoring then .restore else .test
        let met : Prop :=
          ∃ m : Nat, 1 ≤ m ∧ m ≤ p.table.switches.length ∧ now m = .opened ∧ closedBelow m ∧
            (h.state = .ordering ∧ h.probe = some m ∨ h.state = .restoring ∧ h.lo = m)
        let next (j : Nat) (a : SwitchAction) : Prop :=
          1 ≤ j ∧ j ≤ p.table.switches.length ∧ closedBelow j ∧ (p.table.switch j).operable = true ∧
            p.position = .opened ∧
            ((∃ m : Nat, h.state = .ordering ∧ h.probe = some m ∧
                (j < m ∧ a = .closeSwitch ∧ now j ≠ .closed ∨ j = m ∧ a = .openSwitch ∧ now m ≠ .opened)) ∨
              h.state = .restoring ∧ j < h.lo ∧ h.lo ≤ p.table.switches.length ∧ now h.lo = .opened ∧
                a = .closeSwitch ∧ now j ≠ .closed)
        let ordered (j : Nat) (a : SwitchAction) (q : Hunt) : Hunt :=
          { q with
            outstanding := some ⟨h.nextOrder, j, (p.table.switch j).ident.getD 0, a⟩
            nextOrder := h.nextOrder + 1, ordersIssued := min (h.ordersIssued + 1) 255
            orderTimer := some (p.clock + p.table.timeout.getD 0 * 1000) }
        let issued (q : Hunt) (t : State) : Prop :=
          taken 0 t ∧ t.pendingFor .control .huntOrder = true ∧
            t.toPart = { p with table := t.table, hunt := q, notices := t.notices, links := t.links }
        let abandoned (reason : HuntReason) (t : State) : Prop :=
          taken 0 t ∧ t.hunt.state = .abandoned ∧ t.hunt.outstanding = none ∧ t.hunt.orderTimer = none ∧
            t.hunt.closeDue = .none ∧ t.toPart.hasBlock .hunt = false ∧
            t.hunt.result = some
              { outcome := .abandoned, reason := reason, detail := none, startedBy := h.startedBy, lo := h.lo
                hi := h.hi, testsUsed := h.testsUsed, testLimit := h.testLimit.getD 0
                ordersIssued := h.ordersIssued, unusable := h.unusable } ∧
            (∀ x : Master, t.pendingFor x .huntEnd = true) ∧ t.posture = p.posture ∧ t.intake = p.intake ∧
            t.store = p.store ∧ t.clock = p.clock
        let leads (after : Hunt) (does : Part → Part → Prop) : Prop :=
          ∃ (u : SectionTable) (q : Part), reported u ∧ runs = .next (s.withPart (q.answer k r ⟨.done, [], false⟩)) ∧
            does { p with table := u, hunt := after } q
        let backInLockout (t : State) : Prop :=
          t.seq.state = .lockout ∧ t.seq.lockoutReason = some .huntEnd ∧ t.mech = p.mech ∧ t.records = p.records ∧
            ∀ x : Master, t.pendingFor x .lockout = true
        (∀ o : SwitchOrder, h.outstanding = some o → o.number.toNat = reference.toNat → o.ident = ident.toNat →
          let complete : Prop := o.action = .openSwitch ∧ told = .opened ∨ o.action = .closeSwitch ∧ told = .closed
          let failed : Prop :=
            o.action = .closeSwitch ∧ told ≠ .closed ∧ (h.state = .ordering ∨ h.state = .restoring) ∨
              o.action = .openSwitch ∧ told ≠ .opened ∧ h.state = .restoring
          (∀ (j : Nat) (a : SwitchAction), complete → next j a → ∃ t : State, issued (ordered j a h) t) ∧
          (complete → met → p.mech.order = .none → p.position = .opened → p.mech.energyHigh = true →
            p.hasBlock .hotLine = false → p.hasBlock .mechanism = false → (due = .test → p.intake.sourceLive = true) →
            ∃ t : State, taken 0 t ∧
              t.toPart =
                { p with
                  table := t.table
                  links := t.links
                  mech :=
                    { p.mech with
                      order := .close, placer := some .hunt, orderTimer := some (p.clock + 300), closeOutput := true
                      travelTimer := none }
                  elements :=
                    { p.elements with
                      closeKind := if due = .test then .huntTest else .huntRestore
                      mode := if due = .test then .huntTest else p.elements.mode }
                  hunt :=
                    if due = .test then
                      { done with
                        state := .testing, testsUsed := h.testsUsed + 1, closeDue := .none, closeWaitTimer := none
                        settleCount := 0, windowCount := 0, windowSum := 0, windowUnavailable := false }
                    else { done with closeDue := .none, closeWaitTimer := none } }) ∧
          (complete → met → p.mech.energyHigh = false ∨ (due = .test ∧ p.intake.sourceLive = false) →
            ∃ t : State, taken 0 t ∧
              t.toPart =
                { p with
                  table := t.table, links := t.links
                  hunt := { done with closeDue := due, closeWaitTimer := some (p.clock + 10000) } }) ∧
          (∀ m limit : Nat, o.action = .openSwitch → told ≠ .opened → h.state = .ordering →
            h.testLimit = some limit → h.testsUsed ≠ limit → h.lo < m → m ≤ h.hi → p.position = .opened →
            let marked := addPosition h.unusable o.position
            let usable (j : Nat) : Prop := (p.table.switch j).operable = true ∧ hasPosition marked j = false
            usable m →
            (∀ j : Nat, h.lo < j → j ≤ h.hi → usable j →
              probeScore h.lo h.hi m < probeScore h.lo h.hi j ∨
                (probeScore h.lo h.hi m = probeScore h.lo h.hi j ∧ m ≤ j)) →
            m ≤ p.table.switches.length → closedBelow m → now m ≠ .opened →
            ∃ t : State,
              issued (ordered m .openSwitch { h with unusable := marked, probe := some m, doubtfulSeen := false }) t) ∧
          (failed → p.position = .opened → p.mech.order = .none → p.seq.failureNoted = false →
            ∃ t : State, abandoned .switchFailed t ∧ backInLockout t) ∧
          (p.heldByHunt →
            (failed → leads done fun x q => HuntAbandoned .switchFailed none {} none x q) ∧
            (p.position = .opened → o.action = .openSwitch → told ≠ .opened → h.state = .ordering →
              leads { done with unusable := addPosition h.unusable o.position } Planned) ∧
            (∀ m : Nat, complete → h.state = .ordering → h.probe = some m →
              (p.position = .opened → leads done (ProbeDerived m)) ∧
              (p.position ≠ .opened → ¬(closedBelow m ∧ now m = .opened) → 1 ≤ m → m ≤ p.table.switches.length →
                (∀ j : Nat, 1 ≤ j → j ≤ m → (p.table.switch j).operable = true) →
                leads done fun x q => HuntAbandoned .positionNotOpen none {} none x q)) ∧
            (p.position = .opened → complete → h.state = .restoring → leads done RestorationStepped))) ∧
        (255 < reference.toNat → h.state.running = true →
          let required (j : Nat) : Option Believed :=
            if h.state = .restoring then
              if h.lo = 0 ∨ h.lo < j then none else if j = h.lo then some .opened else some .closed
            else match h.probe with
              | some m => if m < j then none else if j = m then some .opened else some .closed
              | none => none
          ((∀ j : Nat, held j → required j ≠ some (p.believed j) ∨ told = p.believed j) →
            ∃ t : State, taken 0 t ∧ set t) ∧
          (∀ j : Nat, held j → required j = some (p.believed j) → told ≠ p.believed j →
            (p.position = .opened → p.mech.order = .none → p.seq.failureNoted = false →
              ∃ t : State, abandoned .switchDisturbed t ∧ backInLockout t) ∧
            (p.position = .closed → p.mech.order = .none →
              ∃ t : State, abandoned .switchDisturbed t ∧ t.hunt.handBackPending = true ∧ t.seq = p.seq ∧
                t.mech =
                  { p.mech with
                    order := .trip, placer := some .hunt, orderTimer := some (p.clock + 200), tripOutput := true
                    travelTimer := none } ∧
                (∃ f : FaultRecord, t.records.ring.head? = some f ∧ f.number = p.records.next ∧ f.origin = .hunt ∧
                  f.causes = {} ∧ f.outcome = .pending) ∧
                ∀ x : Master, t.pendingFor x .trip = true ∧ t.pendingFor x .record = true) ∧
            (p.heldByHunt → leads h fun x q => HuntAbandoned .switchDisturbed none {} none x q)))))

/-- The test of a hunt (R139, R141, R143). The end of a test window forms a result by R139's table, applies it to the range at
once, and trips with an empty cause set; as a bare command its sum, and whether a step passed over was UNAVAILABLE, are free:
the model's choice, log entry 4. A running step in HUNT_TEST mode (R34) runs the high-set elements and SOTF on all four lanes,
keeps the mask, the SEF bit and the episode, and leaves the rest as it is. Once the close has completed it is handed to the
Hunt: 5 settle steps, then 20 window steps with their exact sum (R139), whose last ends the window. A decision on any other
step (R140, R36) with SOTF on N alone is PRESENT at once, and with a phase or HIGHSET abandons with OTHER_FAULT; on the
close's stroke the close ends trip-free (R51). With a trip order in progress the decision is dropped (R37). A decision during
the close of restoration, through the Sequencer in HUNT_HELD (R56), abandons with RESTORE_TRIP. A decision on the window's
last step is left out (the model's choice, log entry 12). That no order in progress means the test close has completed is the
model's reading, log entry 22. CLOSED in TESTING ends the order and the close kind, and the Hunt stays as it is (R138, R19).
OPENED in TEST_TRIP plans the next step after PRESENT or CLEAR (R141, R131): the next probe with its next switch order, or its
test close, placed at once or waited for (R132, R137, R138); or restoration with SECTION_FOUND, LIMIT_REACHED or NO_CANDIDATE,
with its next switch order, its close, or the conclusion in LOCKOUT (R142 to R144). After a first DOUBTFUL the same probe is
derived afresh, or, at the limit, restoration is entered (R141). That a first DOUBTFUL shows by the probe lying within the
range is the model's reading, log entry 23; that what Elements hold of a close the Hunt places on OPENED outlives the
announcement of OPEN, log entry 11; that close due is NONE after an accepted close of restoration, log entry 14. -/
def Obligations.TestWindowEndTrips : Prop :=
  let formed (h : Hunt) (sum : Nat) : TestResult :=
    let pickup := h.testPickup.getD 0
    if h.windowUnavailable then .doubtful
    else if pickup ≤ sum / 20 then .present
    else if sum / 20 < pickup * 9 / 10 then .clear
    else .doubtful
  let applied (m : Nat) (result : TestResult) (h : Hunt) : Hunt :=
    let t : Hunt := { h with state := .testTrip }
    match result with
    | .present => { t with hi := m - 1 }
    | .clear => { t with lo := m }
    | .doubtful => if h.doubtfulSeen then { t with hi := m - 1 } else { t with doubtfulSeen := true }
  let tripped (p : Part) (c : Causes) (high : Phases Bool) (sotf : Quad Bool) (t : Part) : Prop :=
    (∃ f : FaultRecord, t.records.ring = (f :: p.records.ring).take 16 ∧ f.number = p.records.next ∧ f.origin = .hunt ∧
      f.causes = c ∧ f.requester = none ∧ f.highsetLanes = high ∧ f.sotfLanes = sotf ∧ f.shot = 0 ∧
      f.outcome = .pending ∧ f.active = p.posture.active ∧ f.level = p.posture.level) ∧
    t.records.pendingRecord = some p.records.next ∧ t.seq = p.seq ∧ t.posture = p.posture ∧ t.table = p.table ∧
    t.links = p.links ∧ t.store = p.store ∧ t.clock = p.clock ∧
    t.mech =
      { p.mech with
        order := .trip, placer := some .hunt, orderTimer := some (p.clock + 200), tripOutput := true
        closeOutput := decide (p.mech.order ≠ .close) && p.mech.closeOutput, travelTimer := none } ∧
    ∀ x : Master, t.pendingFor x .trip = true ∧ t.pendingFor x .record = true
  let ended (reason : HuntReason) (h : Hunt) : Hunt :=
    { h with
      state := .abandoned, outstanding := none, orderTimer := none, closeWaitTimer := none, closeDue := .none
      handBackPending := true
      result := some
        { outcome := .abandoned, reason := reason, detail := none, startedBy := h.startedBy, lo := h.lo, hi := h.hi
          testsUsed := h.testsUsed, testLimit := h.testLimit.getD 0, ordersIssued := h.ordersIssued
          unusable := h.unusable } }
  let noLane : Quad Bool := ⟨false, false, false, false⟩
  let noPhase : Phases Bool := ⟨false, false, false⟩
  (∀ (s : State) (m limit : Nat), s.hunt.state = .testing → s.mech.order = .none → s.toPart.position ≠ .opened →
    s.hunt.probe = some m → s.hunt.testLimit = some limit → s.hunt.lo < m → m ≤ s.hunt.hi →
    ∃ t : State, exec .huntTestWindowEnd s = .next t ∧ tripped s.toPart {} noPhase noLane t.toPart ∧
      (∃ sum : Nat, sum ≤ 1310680 ∧
        ∃ unseen : Bool,
          let w : Hunt :=
            { s.hunt with
              settleCount := 5, windowCount := 20, windowSum := sum
              windowUnavailable := s.hunt.windowUnavailable || unseen }
          t.hunt = applied m (formed w sum) w) ∧
      t.hunt.lo ≤ t.hunt.hi ∧ t.elements = { s.elements with episode := none } ∧ t.entries = s.entries ∧
      t.intake = s.intake) ∧
  (∀ (p : Part) (m : Nat), p.elements.mode = .huntTest →
    let ch := p.intake.channels
    let st := p.settings
    let phase : Nat :=
      if p.elements.coldLoad.isSome then st.phasePickup.getD 0 * st.coldLoadMultiplier.getD 0 / 100
      else st.phasePickup.getD 0
    let high : Phases Nat :=
      ⟨stepHighset st ch.a p.elements.highset.a, stepHighset st ch.b p.elements.highset.b,
        stepHighset st ch.c p.elements.highset.c⟩
    let mask : Quad Bool :=
      ⟨ch.a.atLeast phase, ch.b.atLeast phase, ch.c.atLeast phase, ch.n.atLeast (st.earthPickup.getD 0)⟩
    let sefPicked := ch.n.atLeast (st.sefPickup.getD 0)
    let quiet : Bool := !(mask.a || mask.b || mask.c || mask.n || sefPicked)
    let episode : Option Episode :=
      match p.elements.episode with
      | some e => e.step quiet ch
      | none => if p.elements.maskEmpty = true ∧ quiet = false then some (startEpisode p.uptime ch) else none
    let elements : Elements :=
      { p.elements with
        highset := high, mask := mask, sefPicked := sefPicked, episode := episode
        openCount := if p.position = .closed then p.elements.openCount else min (p.elements.openCount + 1) 360000 }
    let base : Part :=
      { p with
        elements := elements
        intake := { p.intake with
          absentSeen :=
            ⟨p.intake.absentSeen.a || !ch.a.available, p.intake.absentSeen.b || !ch.b.available,
              p.intake.absentSeen.c || !ch.c.available, p.intake.absentSeen.n || !ch.n.available⟩ } }
    let highLanes : Phases Bool :=
      ⟨highsetTrips st ch.a high.a, highsetTrips st ch.b high.b, highsetTrips st ch.c high.c⟩
    let phases : Bool := mask.a || mask.b || mask.c || highLanes.a || highLanes.b || highLanes.c
    let causes : Causes :=
      { highset := highLanes.a || highLanes.b || highLanes.c, sotf := mask.a || mask.b || mask.c || mask.n }
    let stroke : Bool := p.mech.order = .close
    let left : Elements :=
      { elements with
        episode := none
        closeKind := if stroke then .none else p.elements.closeKind
        mode := if stroke then .normal else .huntTest }
    let value : Nat := if ch.n.available then (if ch.n.isClipped then 65534 else ch.n.value.getD 0) else 0
    let summed : Hunt :=
      { p.hunt with
        windowCount := p.hunt.windowCount + 1
        windowSum := p.hunt.windowSum + value
        windowUnavailable := p.hunt.windowUnavailable || !ch.n.available }
    let last : Bool := !stroke && 5 ≤ p.hunt.settleCount && 20 ≤ p.hunt.windowCount + 1
    let counted : Hunt :=
      if stroke then p.hunt
      else if p.hunt.settleCount < 5 then { p.hunt with settleCount := p.hunt.settleCount + 1 }
      else summed
    let counts (t : Part) (h : Hunt) : Hunt :=
      { h with
        settleCount := t.hunt.settleCount, windowCount := t.hunt.windowCount, windowSum := t.hunt.windowSum
        windowUnavailable := t.hunt.windowUnavailable }
    let t := elementsStep p
    (p.position = .closed ∨ (p.position = .travel ∧ stroke = true) →
      p.mech.order = .trip ∨ (p.hunt.state ≠ .testing ∧ p.hunt.state ≠ .restoring) → t = base) ∧
    ((p.position = .closed ∧ p.mech.order = .none) ∨
        (p.position = .travel ∧ stroke = true ∧ p.mech.placer = some .hunt) →
      p.hunt.state = .testing → p.hunt.probe = some m →
      (causes = {} → last = false → t = { base with hunt := counted }) ∧
      (causes = {} → last = true →
        t.hunt = applied m (formed summed summed.windowSum) summed ∧ tripped p {} noPhase noLane t ∧
          t.elements = left ∧ t.intake = base.intake ∧ t.entries = p.entries) ∧
      (causes ≠ {} → last = false → phases = false →
        t.hunt = counts t (applied m .present p.hunt) ∧ tripped p causes highLanes mask t ∧ t.elements = left ∧
          t.intake = base.intake ∧ t.entries = p.entries) ∧
      (causes ≠ {} → last = false → phases = true →
        t.hunt = counts t (ended .otherFault p.hunt) ∧ tripped p causes highLanes mask t ∧ t.elements = left ∧
          t.intake = base.intake ∧ t.entries = p.entries.filter (fun e => e.kind ≠ .hunt) ∧
          ∀ x : Master, t.pendingFor x .huntEnd = true))) ∧
  (∀ (p : Part) (d : Decision), p.seq.state = .huntHeld → p.hunt.state = .restoring → p.mech.order = .close →
    p.mech.placer = some .hunt → p.position = .travel →
    let t := seqDecision d p
    t.hunt = ended .restoreTrip p.hunt ∧ tripped p d.causes d.highsetLanes d.sotfLanes t ∧
      t.elements = { p.elements with episode := none, closeKind := .none, mode := .normal } ∧ t.intake = p.intake ∧
      t.entries = p.entries.filter (fun e => e.kind ≠ .hunt) ∧ ∀ x : Master, t.pendingFor x .huntEnd = true) ∧
  (∀ s : State, s.started = true → s.mech.placer = some .hunt → s.seq.failureNoted = false →
    let ended (closed : Bool) : Mechanism :=
      { s.mech with
        openMade := !closed, closedMade := closed, travelTimer := none, discrepancyTimer := none, order := .none
        placer := none, orderTimer := none, tripOutput := false, closeOutput := false }
    (s.mech.order = .close → ¬(s.mech.openMade = false ∧ s.mech.closedMade = true) → s.mech.settled = some .opened →
      s.hunt.state = .testing → s.elements.closeKind = .huntTest →
      exec (.contactChange false true) s =
        .next (s.withPart { s.toPart with
          mech := { ended true with settled := some .closed }
          elements := { s.elements with closeKind := .none } })) ∧
    (∀ n : Nat, s.mech.order = .trip → ¬(s.mech.openMade = true ∧ s.mech.closedMade = false) →
      s.mech.settled = some .closed → s.hunt.state = .testTrip → s.hunt.handBackPending = false →
      s.records.pendingRecord = some n →
      let opened : Part :=
        { s.toPart with
          mech := ended false
          records :=
            { s.records with
              ring := s.records.ring.map (fun r => if r.number = n then { r with outcome := .opened } else r)
              pendingRecord := none } }
      let again (m : Nat) : Prop := s.hunt.probe = some m ∧ s.hunt.lo < m ∧ m ≤ s.hunt.hi
      ∃ q : Part,
        exec (.contactChange true false) s =
          .next (s.withPart { q with
            mech := { q.mech with settled := some .opened }
            elements :=
              if q.mech.order = .close then
                { Elements.cleared with
                  closeKind := q.elements.closeKind
                  mode := if q.elements.closeKind = .huntTest then .huntTest else .normal }
              else Elements.cleared }) ∧
        ((∀ m : Nat, ¬again m) → Planned opened q) ∧
        (∀ m : Nat, again m →
          (some s.hunt.testsUsed = s.hunt.testLimit → RestorationEntered .limitReached opened q) ∧
          (some s.hunt.testsUsed ≠ s.hunt.testLimit →
            ProbeDerived m { opened with hunt := { s.hunt with state := .ordering } } q))))

/-! ## Stored image and start-up -/

/-- A completed write (R182, R193, R194): it leaves the queue, its item holds what was carried with a sound mark, the
waiting link may send its answer, and the next write begins. -/
def Obligations.StoreWriteCompletes : Prop :=
  ∀ (w : QueuedWrite) (rest : List QueuedWrite) (s : State), s.store.queue = w :: rest → s.store.writing = true →
    s.started = true →
    ∃ t : State, exec .storeWriteComplete s = .next t ∧ t.store.queue = rest ∧
      (∀ (g : GroupId) (x : Option Settings), w.write = .group g x →
        t.store.groups.get g = ⟨x, true⟩ ∧ t.store.season = s.store.season ∧ t.store.sections = s.store.sections ∧
        t.store.slots = s.store.slots ∧ ∀ h : GroupId, h ≠ g → t.store.groups.get h = s.store.groups.get h) ∧
      (∀ x : Option TableImage, w.write = .sections x →
        t.store.sections = ⟨x, true⟩ ∧ t.store.groups = s.store.groups ∧ t.store.season = s.store.season ∧
        t.store.slots = s.store.slots) ∧
      (∀ x : Season, w.write = .season x →
        t.store.season = ⟨x, true⟩ ∧ t.store.groups = s.store.groups ∧ t.store.sections = s.store.sections ∧
        t.store.slots = s.store.slots) ∧
      (∀ (n : SlotId) (x : Option SlotEntry), w.write = .slot n x →
        t.store.slots.get n = ⟨x, true⟩ ∧ t.store.groups = s.store.groups ∧ t.store.season = s.store.season ∧
        t.store.sections = s.store.sections ∧ ∀ j : SlotId, j ≠ n → t.store.slots.get j = s.store.slots.get j) ∧
      (t.store.writing = true ↔ rest ≠ []) ∧
      (∀ k : LinkId, w.link = some k →
        (t.links.get k).answer = (s.links.get k).answer.map (fun a => { a with held := false }) ∧
        ∀ j : LinkId, j ≠ k → t.links.get j = s.links.get j) ∧
      (w.link = none → t.links = s.links) ∧
      t.toPart = { s.toPart with store := t.store, links := t.links }

/-- A cold start (R196 to R198) releases outputs and lines and leaves the part before completion with READY alone latched. The
state is a function of the eleven items and of what start-up reads: queued writes, the write in progress and everything else
are abandoned (R195, R196). A valid item restores what it holds, an invalid group or table EMPTY, an invalid season
FIRE_SEASON (R197); the list is built from the slots by R94, with MEASURE last and HOT_LINE present told to Posture; the links
take their roles from the straps (R175, R185); the rewrites are queued in R192's order while the items keep their old contents
(R197, R200). Log entries mark what is the model's: that a damaged item keeps its contents and loses its mark alone (24, its
choice), that COLD_START carries what start-up reads, the damaged items and the holds of the cold-start input among them (7,
its reading), and what an EMPTY table holds beside no header and no entries (32, its choice). START_UP_COMPLETE holds the part
as it stands while the cold-start input is asserted (R196). Once it is released, uptime, the frame-due timer and the quiet
timers start, a DISABLED link's quiet timer too (log entry 30, the model's reading), the first queued write begins, with an
end at 40 ms at the latest (R199; log entry 19, the model's choice), and the line of each master whose READY is eligible and
whose role a link has is asserted. That a timer holds the clock value of its end, and uptime counts from a clock of 0, is log
entry 2, the model's choice. -/
def Obligations.StartsAfresh : Prop :=
  (∀ (reads : ColdReads) (s u : State), s.store.groups = u.store.groups → s.store.sections = u.store.sections →
    s.store.season = u.store.season → s.store.slots = u.store.slots → s.pending = u.pending →
    exec (.coldStart reads) s = exec (.coldStart reads) u) ∧
  (∀ (reads : ColdReads) (s : State), ∃ t : State, exec (.coldStart reads) s = .next t ∧ t.started = false ∧
    t.coldInput = reads.inputHolds ∧
    t.mech.tripOutput = false ∧ t.mech.closeOutput = false ∧ t.mech.order = .none ∧
    t.mech.openMade = reads.openMade ∧ t.mech.closedMade = reads.closedMade ∧ t.mech.energyHigh = reads.energyHigh ∧
    (t.seq.state = .closed ↔ t.toPart.position = .closed) ∧ (t.toPart.position ≠ .closed → t.seq.state = .lockout ∧
      t.seq.lockoutReason = some .start) ∧
    t.intake.state = .lost ∧ t.intake.loss = 32 ∧ t.toPart.hasBlock .measure = true ∧
    (∀ m : Master, (t.notices.get m).latched = NoticeKind.ready.bit ∧ (t.notices.get m).line = false) ∧
    t.posture.silent = true ∧ t.posture.silenceMinutes = 30 ∧ SelectionStands t.posture ∧
    t.records = { ring := [], next := 1, pendingRecord := none } ∧ t.hunt.state = .idle ∧
    t.store.writing = false ∧ t.store.season.contents = s.store.season.contents ∧
    (∀ g : GroupId, (t.store.groups.get g).contents = (s.store.groups.get g).contents ∧
      ((t.store.groups.get g).valid = true ↔
        (s.store.groups.get g).valid = true ∧ ItemId.group g ∉ reads.damaged)) ∧
    t.pending = s.pending) ∧
  (∀ (reads : ColdReads) (s : State),
    let sound (valid : Bool) (i : ItemId) : Bool := valid && decide (i ∉ reads.damaged)
    let groupSound (g : GroupId) : Bool := sound (s.store.groups.get g).valid (.group g)
    let tableSound : Bool := sound s.store.sections.valid .sections
    let seasonSound : Bool := sound s.store.season.valid .season
    let slotSound (n : SlotId) : Bool := sound (s.store.slots.get n).valid (.slot n)
    let order : List SlotId := [.slot1, .slot2, .slot3, .slot4, .slot5]
    let holds (n : SlotId) : Option SlotEntry := if slotSound n then (s.store.slots.get n).contents else none
    let repeated (n : SlotId) : Bool := (order.takeWhile (· ≠ n)).any fun i => holds i = holds n
    let gravest : SlotEntry := ⟨.hotLine, .master .control, 0⟩
    let assigned : Option SlotId :=
      if order.any fun i => holds i = some gravest then none else order.find? fun n => !slotSound n
    let entry (e : SlotEntry) (n : SlotId) : BlockEntry := ⟨e.kind, e.owner, e.reason, 0, none, none, some n⟩
    let restored (n : SlotId) : List BlockEntry :=
      match holds n with
      | some e => if repeated n then [] else [entry e n]
      | none => []
    let slotWrite (n : SlotId) : List Write :=
      if !slotSound n then [.slot n (if assigned = some n then some gravest else none)]
      else if (holds n).isSome && repeated n then [.slot n none] else []
    let link (role : Role) : Link :=
      { role := role, receive := .quietWait, length := 0, bytes := [], gapTimer := none, quietTimer := none, busy := false
        inHand := none, answer := none, waiting := none, health := 0, faulty := false }
    let named (strap : Option Master) (given : List (Option Master)) : Role :=
      match strap with
      | some m => if some m ∈ given then .disabled else .held m
      | none => .disabled
    ∃ t : State, exec (.coldStart reads) s = .next t ∧
      (∀ g : GroupId, t.store.groups.get g = ⟨(s.store.groups.get g).contents, groupSound g⟩) ∧
      t.store.sections = ⟨s.store.sections.contents, tableSound⟩ ∧
      t.store.season = ⟨s.store.season.contents, seasonSound⟩ ∧
      (∀ n : SlotId, t.store.slots.get n = ⟨(s.store.slots.get n).contents, slotSound n⟩) ∧
      (∀ (g : GroupId) (x : Settings), groupSound g = true → (s.store.groups.get g).contents = some x →
        t.posture.groups.get g = ⟨.ready, some x, some x⟩) ∧
      (∀ g : GroupId, (groupSound g = false ∨ (s.store.groups.get g).contents = none) →
        t.posture.groups.get g = ⟨.empty, none, none⟩) ∧
      (∀ x : TableImage, tableSound = true → s.store.sections.contents = some x →
        t.table =
          ⟨.ready, some x.n, some x.timeout, x.switches.map fun e => ⟨e.ident, e.operable, .unknown⟩, some x⟩) ∧
      (tableSound = false ∨ s.store.sections.contents = none →
        t.table = ⟨.empty, none, none, List.replicate 15 ⟨none, false, .unknown⟩, none⟩) ∧
      t.posture.season = (if seasonSound then s.store.season.contents else .fireSeason) ∧
      t.posture.declared = .none ∧ t.posture.declaredExpiry = none ∧ t.posture.localRaise = .none ∧
      t.posture.silenceTimer = none ∧ t.posture.hotLinePresent = t.toPart.hasBlock .hotLine ∧
      t.entries =
        order.flatMap restored ++ (assigned.map (entry gravest)).toList ++ [⟨.measure, .part, 0, 0, none, none, none⟩] ∧
      t.store.queue =
        ((([GroupId.g0, .g1, .g2, .g3].flatMap fun g => if groupSound g then [] else [Write.group g none])
          ++ (if tableSound then [] else [Write.sections none]) ++ (if seasonSound then [] else [Write.season .fireSeason])
          ++ order.flatMap slotWrite).map fun w => ⟨w, none⟩) ∧
      t.links =
        ⟨link (named reads.strap1 []), link (named reads.strap2 [reads.strap1]),
          link (named reads.strap3 [reads.strap1, reads.strap2])⟩ ∧
      t.elements = { Elements.cleared with openCount := if t.toPart.position = .closed then 0 else 360000 } ∧
      t.hunt.outstanding = none ∧ t.hunt.closeDue = .none ∧ t.hunt.unusable = 0 ∧ t.hunt.nextOrder = 0 ∧
      t.hunt.handBackPending = false ∧ t.hunt.result = none) ∧
  (∀ (holds : Nat) (s : State), s.started = false → s.coldInput = holds + 1 →
    exec .startUpComplete s = .next (s.withPart { s.toPart with coldInput := holds })) ∧
  (∀ s : State, s.started = false → s.coldInput = 0 → ∃ t : State, exec .startUpComplete s = .next t ∧ t.started = true ∧
    t.clock = 0 ∧ t.coldInput = 0 ∧ t.intake = { s.intake with frameDue := some 15 } ∧
    (∀ k : LinkId, t.links.get k = { s.links.get k with quietTimer := some 5 }) ∧
    (∀ m : Master, t.notices.get m = { s.notices.get m with line := (s.notices.get m).lineLevel (s.toPart.holdsRole m) }) ∧
    t.mech =
      { s.mech with
        travelTimer := if s.toPart.position = .travel then some 300 else none
        discrepancyTimer := if s.toPart.position = .discrepant then some 300 else none } ∧
    t.seq = s.seq ∧ t.entries = s.entries ∧ t.posture = s.posture ∧ t.hunt = s.hunt ∧ t.table = s.table ∧
    t.records = s.records ∧ t.elements = s.elements ∧ t.store.queue = s.store.queue ∧
    t.store =
      (if s.store.queue = [] ∨ s.store.writing = true then s.store
       else { s.store with writing := true, writeTimer := some 40 }))

/-! ## Reads -/

/-- The nine reads are answered from the part as it stands and change no state (R15, R91, R106, R125, R133, R148, R158,
R183). Their bodies, laid out byte by byte (R186, R188 to R191), have the lengths of the layouts. READ SETTING shows a field of a
group's working record, all absent while EMPTY, of FALLBACK (R107), or the silence time, and is OUT_OF_RANGE otherwise; READ
HUNT ORDER is NOT_FOUND with no order; READ RECORD is OUT_OF_RANGE from 16 upward and NOT_FOUND where no record stands. A time
left in whole seconds is the second below or above it (log entry 16, a free choice), the uptime past its range is free (17), and
the model settles some bytes itself: the source-live byte and yes and no, with the wire forms of none (18, its reading), the
flags of an entry that holds nothing and the timeout of a table with no header (32, its choice), and that READ HUNT's live values
apply exactly while a hunt runs (34, its reading). -/
def Obligations.ReadsChangeNothing : Prop :=
  let one (v : Nat) : List Byte := [BitVec.ofNat 8 v]
  let two (v : Nat) : List Byte := [BitVec.ofNat 8 v, BitVec.ofNat 8 (v / 256)]
  let four (v : Nat) : List Byte :=
    [BitVec.ofNat 8 v, BitVec.ofNat 8 (v / 256), BitVec.ofNat 8 (v / 65536), BitVec.ofNat 8 (v / 16777216)]
  let oneOr (v : Option Nat) : List Byte := one (v.getD 255)
  let twoOr (v : Option Nat) : List Byte := two (v.getD 65535)
  let fourOr (v : Option Nat) : List Byte := four (v.getD 4294967295)
  let bit (b : Bool) (n : Nat) : Nat := if b then n else 0
  let lanes (q : Quad Bool) : Nat := bit q.a 1 + bit q.b 2 + bit q.c 4 + bit q.n 8
  let causes (c : Causes) : Nat :=
    bit c.phA 1 + bit c.phB 2 + bit c.phC 4 + bit c.highset 8 + bit c.earth 16 + bit c.sef 32 + bit c.sotf 64 +
      bit c.manual 128 + bit c.measureLoss 256
  let master (m : Master) : Nat := [Master.bay, .control, .crew].idxOf m
  let level (l : Level) : Nat := [Level.none, .elevated, .ban].idxOf l
  let active (a : Active) : Nat := [Active.group .g0, .group .g1, .group .g2, .group .g3, .fallback].idxOf a
  let origin (o : Origin) : Nat := [Origin.elements, .manual, .measureLoss, .hunt].idxOf o
  let edit (e : EditState) : Nat := [EditState.empty, .editing, .ready].idxOf e
  let starter (x : StartedBy) : Nat := [StartedBy.bay, .control, .automatic].idxOf x
  let refusal (w : Why) : Nat :=
    1 + [Why.orderInProgress, .positionUnsettled, .notLockout, .huntRunning, .hotLine, .mechanismBlocked, .measureLost,
      .energyLow, .notOpen, .tableNotReady, .switchNotClosed, .fireBan, .controlSilent, .notRunning].idxOf w
  let seconds (p : Part) (timer : Option Nat) (n : Nat) : Prop :=
    match timer with
    | some e => (e - p.clock) / 1000 ≤ n ∧ n ≤ (e - p.clock + 999) / 1000
    | none => n = 65535
  let quality (i : Intake) : Nat := lanes i.absentSeen + 16 * lanes i.clippedSeen
  let health (l : Link) : List Byte := if l.role = .disabled then one 255 else one (l.health + bit l.faulty 128)
  let order (p : Part) (n : Nat) : List Byte :=
    match p.hunt.outstanding with
    | some o => one o.number.toNat ++ one o.ident ++ one o.position ++
        one ([SwitchAction.openSwitch, .closeSwitch].idxOf o.action) ++ two n
    | none => [255, 255, 255, 255, 255, 255]
  let ring (p : Part) : List Byte := one p.records.ring.length ++ two p.records.next
  let done (body : List Byte) : Reply := ⟨.done, body, false⟩
  ∀ (k : LinkId) (m : Master) (s : State), s.toPart.serves k m →
    (∀ (r : Request) (reply : Part → Reply),
      (r, reply) ∈
        ([(.status, askStatus), (.readMeasurements, askReadMeasurements), (.readBlocks, askReadBlocks),
          (.readGroupState, askReadGroupState), (.readSections, askReadSections), (.readHuntOrder, askReadHuntOrder),
          (.readHunt, askReadHunt)] : List (Request × (Part → Reply))) →
      exec (r.command k) s =
        .next (s.withPart ((s.toPart.found k m r).answer k r (reply (s.toPart.found k m r))))) ∧
    (∀ target field : Byte,
      let r : Request := .readSetting target field
      exec (.readSetting k target field) s =
        .next (s.withPart ((s.toPart.found k m r).answer k r (askReadSetting target field (s.toPart.found k m r))))) ∧
    (∀ index : Byte,
      let r : Request := .readRecord index
      exec (.readRecord k index) s =
        .next (s.withPart ((s.toPart.found k m r).answer k r (askReadRecord index (s.toPart.found k m r))))) ∧
    (∀ p : Part,
      (askStatus p).body.length = 40 ∧ (askReadMeasurements p).body.length = 36 ∧
      (askReadBlocks p).body.length = 3 + 14 * p.entries.length ∧ (askReadGroupState p).body.length = 11 ∧
      (askReadSections p).body.length = 49 ∧ (askReadHunt p).body.length = 30 ∧
      (∀ o : SwitchOrder, p.hunt.outstanding = some o → (askReadHuntOrder p).body.length = 6) ∧
      (∀ i : Byte, (askReadRecord i p).code = .done → (askReadRecord i p).body.length = 30) ∧
      (∀ target field : Byte, (askReadSetting target field p).code = .done →
        (askReadSetting target field p).body.length = 4)) ∧
    (∀ p : Part, ∃ n : Nat, seconds p p.posture.silenceTimer n ∧
      askStatus p =
        done (
          one ([SeqState.closed, .tripping, .deadTime, .closeWait, .closing, .reclaim, .lockout, .huntHeld,
            .failed].idxOf p.seq.state) ++
          one ([Position.opened, .closed, .travel, .discrepant].idxOf p.position) ++
          one (bit p.mech.energyHigh 1 + bit p.intake.sourceLive 2 + bit p.posture.hotLinePresent 4 +
            bit p.posture.silent 8 + bit (p.intake.state = .lost) 16) ++
          one p.seq.shotsUsed ++ oneOr p.seq.pendingShot ++
          one ([ClosePurpose.none, .automatic, .manual].idxOf p.seq.purpose) ++
          (match p.seq.lastTrip with
            | some x => one (origin x.origin) ++ oneOr (x.requester.map master) ++ two (causes x.causes)
            | none => [255, 255, 255, 255]) ++
          oneOr (p.seq.lockoutReason.map fun r =>
            [LockoutReason.manualTrip, .measureLoss, .closeOntoFault, .tripCause, .shotsExhausted, .blocked,
              .closeWaitExpired, .closeRefused, .settings, .fireBan, .externalOpen, .mechanismReset, .huntEnd,
              .start].idxOf r) ++
          (match p.seq.state with
            | .deadTime => one 1 ++ fourOr (p.seq.deadTimer.map fun e => e - p.clock)
            | .closeWait => one 2 ++ fourOr (p.seq.closeWaitTimer.map fun e => e - p.clock)
            | .reclaim => one 3 ++ fourOr (p.seq.reclaimTimer.map fun e => e - p.clock)
            | _ => [0, 255, 255, 255, 255]) ++
          one (active p.posture.active) ++ one ([GroupId.g0, .g1, .g2, .g3].idxOf p.posture.wanted) ++
          one (level p.posture.level) ++ one ([Season.offSeason, .fireSeason].idxOf p.posture.season) ++
          one (level p.posture.declared) ++ fourOr (p.posture.declaredExpiry.map fun e => e - p.uptime) ++
          one (level p.posture.localRaise) ++ two n ++ one p.entries.length ++
          one ([HuntState.idle, .ordering, .testing, .testTrip, .restoring, .concluded, .abandoned].idxOf p.hunt.state) ++
          one p.intake.loss ++ one (lanes p.elements.mask + bit p.elements.sefPicked 16) ++ one (quality p.intake) ++
          health p.links.link1 ++ health p.links.link2 ++ health p.links.link3 ++ four p.uptime)) ∧
    (∀ p : Part,
      let channel (c : Channel) : List Byte :=
        oneOr (c.cls.map fun x => [ChannelClass.absent, .clipped, .zero, .normal].idxOf x) ++ one (bit (!c.available) 1) ++
          one c.hold ++ twoOr c.value ++ twoOr c.held
      askReadMeasurements p =
        done (
          oneOr (p.intake.lastKind.map fun x => [StepKind.frame, .missing].idxOf x) ++
          twoOr (p.intake.reference.map BitVec.toNat) ++ channel p.intake.channels.a ++ channel p.intake.channels.b ++
          channel p.intake.channels.c ++ channel p.intake.channels.n ++ one (bit (!p.intake.sourceLive) 1) ++
          one p.intake.liveHold ++ one (quality p.intake) ++ one p.intake.loss ++
          one ([MeasureState.good, .lost].idxOf p.intake.state))) ∧
    (∀ p : Part,
      askReadBlocks p =
        done (
          one p.entries.length ++ one (p.entries.filter fun e => e.owner ≠ .part).length ++
          one (p.entries.filter fun e => e.kind = .hotLine).length ++
          p.entries.flatMap fun e =>
            one ([BlockKind.hotLine, .operator, .hunt, .measure, .mechanism].idxOf e.kind) ++
            one ([Owner.master .bay, .master .control, .master .crew, .part].idxOf e.owner) ++ one e.reason.toNat ++
            four e.placedAt ++ two (e.expiry.getD 0) ++ fourOr (e.moment.map fun x => x - p.uptime) ++
            one (bit e.slot.isSome 1))) ∧
    (∀ (p : Part) (index : Byte),
      (16 ≤ index.toNat → askReadRecord index p = ⟨.outOfRange, ring p, false⟩) ∧
      (index.toNat < 16 → p.records.ring[index.toNat]? = none → askReadRecord index p = ⟨.notFound, ring p, false⟩) ∧
      (∀ f : FaultRecord, index.toNat < 16 → p.records.ring[index.toNat]? = some f →
        let peak (x : Option Peak) : List Byte := twoOr (x.map fun y => y.magnitude)
        let clipped (x : Option Peak) : Bool := x.any fun y => y.clipped
        askReadRecord index p =
          done (ring p ++ two f.number ++ four f.uptime ++ one (origin f.origin) ++ two (causes f.causes) ++
            oneOr (f.requester.map master) ++
            one (bit f.highsetLanes.a 1 + bit f.highsetLanes.b 2 + bit f.highsetLanes.c 4) ++ one (lanes f.sotfLanes) ++
            one f.shot ++ one (active f.active) ++ one (level f.level) ++ peak f.peaks.a ++ peak f.peaks.b ++
            peak f.peaks.c ++ peak f.peaks.n ++
            one (lanes ⟨clipped f.peaks.a, clipped f.peaks.b, clipped f.peaks.c, clipped f.peaks.n⟩) ++
            two (f.steps.getD 0) ++ one ([OpeningOutcome.pending, .opened, .tripFail].idxOf f.outcome)))) ∧
    (∀ p : Part, ∃ n : Nat, seconds p p.hunt.orderTimer n ∧
      (p.hunt.outstanding ≠ none → askReadHuntOrder p = done (order p n)) ∧
      (p.hunt.outstanding = none → askReadHuntOrder p = ⟨.notFound, [], false⟩) ∧
      let h := p.hunt
      let live (v : Option Nat) : Option Nat :=
        if h.state ∈ [.ordering, .testing, .testTrip, .restoring] then v else none
      askReadHunt p =
        done (
          one ([HuntState.idle, .ordering, .testing, .testTrip, .restoring, .concluded, .abandoned].idxOf h.state) ++
          one (bit h.handBackPending 1) ++ oneOr (live h.lo) ++ oneOr (live h.hi) ++ oneOr (live h.probe) ++
          oneOr (live (bit h.doubtfulSeen 1)) ++ oneOr (live h.testsUsed) ++ oneOr (live h.testLimit) ++
          twoOr (live h.testPickup) ++ one h.ordersIssued ++ order p n ++
          one ([CloseDue.none, .test, .restore].idxOf h.closeDue) ++ oneOr (live h.settleCount) ++
          oneOr (live h.windowCount) ++
          (match h.result with
            | some x =>
              one ([HuntOutcome.concludedSection, .concludedRange, .abandoned].idxOf x.outcome) ++
              one ([HuntReason.sectionFound, .limitReached, .noCandidate, .aborted, .manual, .hotLine, .fireBan,
                .measureLost, .mechanism, .external, .switchFailed, .switchDisturbed, .orderTimeout, .positionNotOpen,
                .switchNotOperable, .closeRefused, .closeWaitExpired, .otherFault, .restoreTrip].idxOf x.reason) ++
              (match x.detail with
                | some (.refusal w) => one (refusal w)
                | some (.master y) => one (master y)
                | none => one 255) ++
              one (starter x.startedBy) ++ one x.lo ++ one x.hi ++ one x.testsUsed ++ one x.testLimit ++
              two x.unusable.toNat
            | none => [255, 255, 255, 255, 255, 255, 255, 255, 255, 255]))) ∧
    (∀ (p : Part) (target field : Byte),
      let within : Prop := 1 ≤ field.toNat ∧ field.toNat ≤ 21
      let fixed : List (Option Nat) :=
        [some 4000, some 4, some 10, some 0, some 0, some 4000, some 4, some 10, some 400, some 2000, some 0, none, none,
          none, some 30, some 100, some 600, some 10, some 1000, some 0, some 1]
      (∀ g : GroupId, target.toNat = [GroupId.g0, .g1, .g2, .g3].idxOf g → within →
        let x := p.posture.groups.get g
        let shown : Option Nat :=
          match x.state with
          | .empty => none
          | .editing => x.working.bind fun w => w.field field.toNat
          | .ready => x.image.bind fun w => w.field field.toNat
        askReadSetting target field p = done (fourOr shown)) ∧
      (target = 4 → within → askReadSetting target field p = done (fourOr (fixed.getD (field.toNat - 1) none))) ∧
      (target = 5 → field = 1 → askReadSetting target field p = done (four p.posture.silenceMinutes)) ∧
      ((target.toNat < 5 ∧ ¬within) ∨ (target = 5 ∧ field ≠ 1) ∨ 5 < target.toNat →
        askReadSetting target field p = ⟨.outOfRange, [], false⟩)) ∧
    (∀ p : Part,
      let state (g : Group) : List Byte := one (edit g.state) ++ one (bit g.image.isSome 1)
      askReadGroupState p =
        done (state p.posture.groups.g0 ++ state p.posture.groups.g1 ++ state p.posture.groups.g2 ++
          state p.posture.groups.g3 ++ one ([GroupId.g0, .g1, .g2, .g3].idxOf p.posture.wanted) ++
          one (active p.posture.active) ++ one (level p.posture.level))) ∧
    (∀ p : Part,
      askReadSections p =
        done (one (edit p.table.state) ++ oneOr p.table.n ++ twoOr p.table.timeout ++
          (List.range' 1 15).flatMap fun j =>
            let e := p.table.switch j
            one (e.ident.getD 0) ++ one (bit e.operable 1 + bit (hasPosition p.hunt.unusable j) 2) ++
              one ([Believed.closed, .opened, .unknown].idxOf e.believed)))

end
end

