-- ==== Sys2Proof/Laws/State.lean ====
section
/-! SUPPORT. The plain lemmas of State: reading a collection after one thing of it was replaced, and, for each named update of
the part, every field that it leaves alone or sets. All hold by `rfl` or by the cases of a name. -/

namespace Sys2Proof.Machine

/-! ## Collections -/

/-- The thing just put in is the one found. -/
@[simp] theorem PerMaster.get_set_self {α : Type} (t : PerMaster α) (i : Master) (x : α) : (t.set i x).get i = x := by cases i <;> rfl

/-- Any other thing is found as it was. -/
theorem PerMaster.get_set_ne {α : Type} (t : PerMaster α) {i j : Master} (x : α) (h : j ≠ i) : (t.set i x).get j = t.get j := by
  cases i <;> cases j <;> first | rfl | exact absurd rfl h

/-- What is found after a replacement, either way. -/
theorem PerMaster.get_set {α : Type} (t : PerMaster α) (i j : Master) (x : α) : (t.set i x).get j = if j = i then x else t.get j := by
  cases i <;> cases j <;> rfl

/-- Putting back what is there changes nothing. -/
@[simp] theorem PerMaster.set_get {α : Type} (t : PerMaster α) (i : Master) : t.set i (t.get i) = t := by cases i <;> rfl

/-- The later of two replacements stands. -/
@[simp] theorem PerMaster.set_set {α : Type} (t : PerMaster α) (i : Master) (x y : α) : (t.set i x).set i y = t.set i y := by
  cases i <;> rfl

/-- Collections with the same things are the same. -/
theorem PerMaster.ext_get {α : Type} {t u : PerMaster α} (h : ∀ i : Master, t.get i = u.get i) : t = u := by
  cases t
  cases u
  simp only [PerMaster.mk.injEq]
  exact ⟨h .bay, h .control, h .crew⟩

/-- The thing just put in is the one found. -/
@[simp] theorem PerLink.get_set_self {α : Type} (t : PerLink α) (i : LinkId) (x : α) : (t.set i x).get i = x := by cases i <;> rfl

/-- Any other thing is found as it was. -/
theorem PerLink.get_set_ne {α : Type} (t : PerLink α) {i j : LinkId} (x : α) (h : j ≠ i) : (t.set i x).get j = t.get j := by
  cases i <;> cases j <;> first | rfl | exact absurd rfl h

/-- What is found after a replacement, either way. -/
theorem PerLink.get_set {α : Type} (t : PerLink α) (i j : LinkId) (x : α) : (t.set i x).get j = if j = i then x else t.get j := by
  cases i <;> cases j <;> rfl

/-- Putting back what is there changes nothing. -/
@[simp] theorem PerLink.set_get {α : Type} (t : PerLink α) (i : LinkId) : t.set i (t.get i) = t := by cases i <;> rfl

/-- The later of two replacements stands. -/
@[simp] theorem PerLink.set_set {α : Type} (t : PerLink α) (i : LinkId) (x y : α) : (t.set i x).set i y = t.set i y := by
  cases i <;> rfl

/-- Collections with the same things are the same. -/
theorem PerLink.ext_get {α : Type} {t u : PerLink α} (h : ∀ i : LinkId, t.get i = u.get i) : t = u := by
  cases t
  cases u
  simp only [PerLink.mk.injEq]
  exact ⟨h .link1, h .link2, h .link3⟩

/-- The thing just put in is the one found. -/
@[simp] theorem FourGroups.get_set_self {α : Type} (t : FourGroups α) (i : GroupId) (x : α) : (t.set i x).get i = x := by cases i <;> rfl

/-- Any other thing is found as it was. -/
theorem FourGroups.get_set_ne {α : Type} (t : FourGroups α) {i j : GroupId} (x : α) (h : j ≠ i) : (t.set i x).get j = t.get j := by
  cases i <;> cases j <;> first | rfl | exact absurd rfl h

/-- What is found after a replacement, either way. -/
theorem FourGroups.get_set {α : Type} (t : FourGroups α) (i j : GroupId) (x : α) : (t.set i x).get j = if j = i then x else t.get j := by
  cases i <;> cases j <;> rfl

/-- Putting back what is there changes nothing. -/
@[simp] theorem FourGroups.set_get {α : Type} (t : FourGroups α) (i : GroupId) : t.set i (t.get i) = t := by cases i <;> rfl

/-- The later of two replacements stands. -/
@[simp] theorem FourGroups.set_set {α : Type} (t : FourGroups α) (i : GroupId) (x y : α) : (t.set i x).set i y = t.set i y := by
  cases i <;> rfl

/-- Collections with the same things are the same. -/
theorem FourGroups.ext_get {α : Type} {t u : FourGroups α} (h : ∀ i : GroupId, t.get i = u.get i) : t = u := by
  cases t
  cases u
  simp only [FourGroups.mk.injEq]
  exact ⟨h .g0, h .g1, h .g2, h .g3⟩

/-- The thing just put in is the one found. -/
@[simp] theorem PerSlot.get_set_self {α : Type} (t : PerSlot α) (i : SlotId) (x : α) : (t.set i x).get i = x := by cases i <;> rfl

/-- Any other thing is found as it was. -/
theorem PerSlot.get_set_ne {α : Type} (t : PerSlot α) {i j : SlotId} (x : α) (h : j ≠ i) : (t.set i x).get j = t.get j := by
  cases i <;> cases j <;> first | rfl | exact absurd rfl h

/-- What is found after a replacement, either way. -/
theorem PerSlot.get_set {α : Type} (t : PerSlot α) (i j : SlotId) (x : α) : (t.set i x).get j = if j = i then x else t.get j := by
  cases i <;> cases j <;> rfl

/-- Putting back what is there changes nothing. -/
@[simp] theorem PerSlot.set_get {α : Type} (t : PerSlot α) (i : SlotId) : t.set i (t.get i) = t := by cases i <;> rfl

/-- The later of two replacements stands. -/
@[simp] theorem PerSlot.set_set {α : Type} (t : PerSlot α) (i : SlotId) (x y : α) : (t.set i x).set i y = t.set i y := by
  cases i <;> rfl

/-- Collections with the same things are the same. -/
theorem PerSlot.ext_get {α : Type} {t u : PerSlot α} (h : ∀ i : SlotId, t.get i = u.get i) : t = u := by
  cases t
  cases u
  simp only [PerSlot.mk.injEq]
  exact ⟨h .slot1, h .slot2, h .slot3, h .slot4, h .slot5⟩

/-! ## Named updates of the part -/

@[simp] theorem setLink_started (k : LinkId) (l : Link) (p : Part) : (setLink k l p).started = p.started := rfl
@[simp] theorem setLink_coldInput (k : LinkId) (l : Link) (p : Part) : (setLink k l p).coldInput = p.coldInput := rfl
@[simp] theorem setLink_clock (k : LinkId) (l : Link) (p : Part) : (setLink k l p).clock = p.clock := rfl
@[simp] theorem setLink_intake (k : LinkId) (l : Link) (p : Part) : (setLink k l p).intake = p.intake := rfl
@[simp] theorem setLink_elements (k : LinkId) (l : Link) (p : Part) : (setLink k l p).elements = p.elements := rfl
@[simp] theorem setLink_mech (k : LinkId) (l : Link) (p : Part) : (setLink k l p).mech = p.mech := rfl
@[simp] theorem setLink_seq (k : LinkId) (l : Link) (p : Part) : (setLink k l p).seq = p.seq := rfl
@[simp] theorem setLink_entries (k : LinkId) (l : Link) (p : Part) : (setLink k l p).entries = p.entries := rfl
@[simp] theorem setLink_posture (k : LinkId) (l : Link) (p : Part) : (setLink k l p).posture = p.posture := rfl
@[simp] theorem setLink_table (k : LinkId) (l : Link) (p : Part) : (setLink k l p).table = p.table := rfl
@[simp] theorem setLink_hunt (k : LinkId) (l : Link) (p : Part) : (setLink k l p).hunt = p.hunt := rfl
@[simp] theorem setLink_records (k : LinkId) (l : Link) (p : Part) : (setLink k l p).records = p.records := rfl
@[simp] theorem setLink_notices (k : LinkId) (l : Link) (p : Part) : (setLink k l p).notices = p.notices := rfl
@[simp] theorem setLink_links (k : LinkId) (l : Link) (p : Part) : (setLink k l p).links = p.links.set k l := rfl
@[simp] theorem setLink_store (k : LinkId) (l : Link) (p : Part) : (setLink k l p).store = p.store := rfl

@[simp] theorem setNotices_started (m : Master) (n : MasterNotices) (p : Part) : (setNotices m n p).started = p.started := rfl
@[simp] theorem setNotices_coldInput (m : Master) (n : MasterNotices) (p : Part) : (setNotices m n p).coldInput = p.coldInput := rfl
@[simp] theorem setNotices_clock (m : Master) (n : MasterNotices) (p : Part) : (setNotices m n p).clock = p.clock := rfl
@[simp] theorem setNotices_intake (m : Master) (n : MasterNotices) (p : Part) : (setNotices m n p).intake = p.intake := rfl
@[simp] theorem setNotices_elements (m : Master) (n : MasterNotices) (p : Part) : (setNotices m n p).elements = p.elements := rfl
@[simp] theorem setNotices_mech (m : Master) (n : MasterNotices) (p : Part) : (setNotices m n p).mech = p.mech := rfl
@[simp] theorem setNotices_seq (m : Master) (n : MasterNotices) (p : Part) : (setNotices m n p).seq = p.seq := rfl
@[simp] theorem setNotices_entries (m : Master) (n : MasterNotices) (p : Part) : (setNotices m n p).entries = p.entries := rfl
@[simp] theorem setNotices_posture (m : Master) (n : MasterNotices) (p : Part) : (setNotices m n p).posture = p.posture := rfl
@[simp] theorem setNotices_table (m : Master) (n : MasterNotices) (p : Part) : (setNotices m n p).table = p.table := rfl
@[simp] theorem setNotices_hunt (m : Master) (n : MasterNotices) (p : Part) : (setNotices m n p).hunt = p.hunt := rfl
@[simp] theorem setNotices_records (m : Master) (n : MasterNotices) (p : Part) : (setNotices m n p).records = p.records := rfl
@[simp] theorem setNotices_notices (m : Master) (n : MasterNotices) (p : Part) : (setNotices m n p).notices = p.notices.set m { n with line := n.lineLevel (p.showsLine m) } := rfl
@[simp] theorem setNotices_links (m : Master) (n : MasterNotices) (p : Part) : (setNotices m n p).links = p.links := rfl
@[simp] theorem setNotices_store (m : Master) (n : MasterNotices) (p : Part) : (setNotices m n p).store = p.store := rfl

@[simp] theorem Part.reach_started (p : Part) (e : Nat) : (p.reach e).started = p.started := rfl
@[simp] theorem Part.reach_coldInput (p : Part) (e : Nat) : (p.reach e).coldInput = p.coldInput := rfl
@[simp] theorem Part.reach_clock (p : Part) (e : Nat) : (p.reach e).clock = max p.clock e := rfl
@[simp] theorem Part.reach_intake (p : Part) (e : Nat) : (p.reach e).intake = p.intake := rfl
@[simp] theorem Part.reach_elements (p : Part) (e : Nat) : (p.reach e).elements = p.elements := rfl
@[simp] theorem Part.reach_mech (p : Part) (e : Nat) : (p.reach e).mech = p.mech := rfl
@[simp] theorem Part.reach_seq (p : Part) (e : Nat) : (p.reach e).seq = p.seq := rfl
@[simp] theorem Part.reach_entries (p : Part) (e : Nat) : (p.reach e).entries = p.entries := rfl
@[simp] theorem Part.reach_posture (p : Part) (e : Nat) : (p.reach e).posture = p.posture := rfl
@[simp] theorem Part.reach_table (p : Part) (e : Nat) : (p.reach e).table = p.table := rfl
@[simp] theorem Part.reach_hunt (p : Part) (e : Nat) : (p.reach e).hunt = p.hunt := rfl
@[simp] theorem Part.reach_records (p : Part) (e : Nat) : (p.reach e).records = p.records := rfl
@[simp] theorem Part.reach_notices (p : Part) (e : Nat) : (p.reach e).notices = p.notices := rfl
@[simp] theorem Part.reach_links (p : Part) (e : Nat) : (p.reach e).links = p.links := rfl
@[simp] theorem Part.reach_store (p : Part) (e : Nat) : (p.reach e).store = p.store := rfl

@[simp] theorem setGroup_started (g : GroupId) (x : Group) (p : Part) : (setGroup g x p).started = p.started := rfl
@[simp] theorem setGroup_coldInput (g : GroupId) (x : Group) (p : Part) : (setGroup g x p).coldInput = p.coldInput := rfl
@[simp] theorem setGroup_clock (g : GroupId) (x : Group) (p : Part) : (setGroup g x p).clock = p.clock := rfl
@[simp] theorem setGroup_intake (g : GroupId) (x : Group) (p : Part) : (setGroup g x p).intake = p.intake := rfl
@[simp] theorem setGroup_elements (g : GroupId) (x : Group) (p : Part) : (setGroup g x p).elements = p.elements := rfl
@[simp] theorem setGroup_mech (g : GroupId) (x : Group) (p : Part) : (setGroup g x p).mech = p.mech := rfl
@[simp] theorem setGroup_seq (g : GroupId) (x : Group) (p : Part) : (setGroup g x p).seq = p.seq := rfl
@[simp] theorem setGroup_entries (g : GroupId) (x : Group) (p : Part) : (setGroup g x p).entries = p.entries := rfl
@[simp] theorem setGroup_posture (g : GroupId) (x : Group) (p : Part) : (setGroup g x p).posture = { p.posture with groups := p.posture.groups.set g x } := rfl
@[simp] theorem setGroup_table (g : GroupId) (x : Group) (p : Part) : (setGroup g x p).table = p.table := rfl
@[simp] theorem setGroup_hunt (g : GroupId) (x : Group) (p : Part) : (setGroup g x p).hunt = p.hunt := rfl
@[simp] theorem setGroup_records (g : GroupId) (x : Group) (p : Part) : (setGroup g x p).records = p.records := rfl
@[simp] theorem setGroup_notices (g : GroupId) (x : Group) (p : Part) : (setGroup g x p).notices = p.notices := rfl
@[simp] theorem setGroup_links (g : GroupId) (x : Group) (p : Part) : (setGroup g x p).links = p.links := rfl
@[simp] theorem setGroup_store (g : GroupId) (x : Group) (p : Part) : (setGroup g x p).store = p.store := rfl

@[simp] theorem settle_started (x : Position) (p : Part) : (settle x p).started = p.started := rfl
@[simp] theorem settle_coldInput (x : Position) (p : Part) : (settle x p).coldInput = p.coldInput := rfl
@[simp] theorem settle_clock (x : Position) (p : Part) : (settle x p).clock = p.clock := rfl
@[simp] theorem settle_intake (x : Position) (p : Part) : (settle x p).intake = p.intake := rfl
@[simp] theorem settle_elements (x : Position) (p : Part) : (settle x p).elements = p.elements := rfl
@[simp] theorem settle_mech (x : Position) (p : Part) : (settle x p).mech = { p.mech with settled := some x } := rfl
@[simp] theorem settle_seq (x : Position) (p : Part) : (settle x p).seq = p.seq := rfl
@[simp] theorem settle_entries (x : Position) (p : Part) : (settle x p).entries = p.entries := rfl
@[simp] theorem settle_posture (x : Position) (p : Part) : (settle x p).posture = p.posture := rfl
@[simp] theorem settle_table (x : Position) (p : Part) : (settle x p).table = p.table := rfl
@[simp] theorem settle_hunt (x : Position) (p : Part) : (settle x p).hunt = p.hunt := rfl
@[simp] theorem settle_records (x : Position) (p : Part) : (settle x p).records = p.records := rfl
@[simp] theorem settle_notices (x : Position) (p : Part) : (settle x p).notices = p.notices := rfl
@[simp] theorem settle_links (x : Position) (p : Part) : (settle x p).links = p.links := rfl
@[simp] theorem settle_store (x : Position) (p : Part) : (settle x p).store = p.store := rfl

@[simp] theorem passTime_started (p : Part) : (passTime p).started = p.started := rfl
@[simp] theorem passTime_coldInput (p : Part) : (passTime p).coldInput = p.coldInput := rfl
@[simp] theorem passTime_clock (p : Part) : (passTime p).clock = p.clock + 1 := rfl
@[simp] theorem passTime_intake (p : Part) : (passTime p).intake = p.intake := rfl
@[simp] theorem passTime_elements (p : Part) : (passTime p).elements = p.elements := rfl
@[simp] theorem passTime_mech (p : Part) : (passTime p).mech = p.mech := rfl
@[simp] theorem passTime_seq (p : Part) : (passTime p).seq = p.seq := rfl
@[simp] theorem passTime_entries (p : Part) : (passTime p).entries = p.entries := rfl
@[simp] theorem passTime_posture (p : Part) : (passTime p).posture = p.posture := rfl
@[simp] theorem passTime_table (p : Part) : (passTime p).table = p.table := rfl
@[simp] theorem passTime_hunt (p : Part) : (passTime p).hunt = p.hunt := rfl
@[simp] theorem passTime_records (p : Part) : (passTime p).records = p.records := rfl
@[simp] theorem passTime_notices (p : Part) : (passTime p).notices = p.notices := rfl
@[simp] theorem passTime_links (p : Part) : (passTime p).links = p.links := rfl
@[simp] theorem passTime_store (p : Part) : (passTime p).store = p.store := rfl

@[simp] theorem elementsHandBack_started (p : Part) : (elementsHandBack p).started = p.started := rfl
@[simp] theorem elementsHandBack_coldInput (p : Part) : (elementsHandBack p).coldInput = p.coldInput := rfl
@[simp] theorem elementsHandBack_clock (p : Part) : (elementsHandBack p).clock = p.clock := rfl
@[simp] theorem elementsHandBack_intake (p : Part) : (elementsHandBack p).intake = p.intake := rfl
@[simp] theorem elementsHandBack_elements (p : Part) : (elementsHandBack p).elements = { p.elements with mode := .normal } := rfl
@[simp] theorem elementsHandBack_mech (p : Part) : (elementsHandBack p).mech = p.mech := rfl
@[simp] theorem elementsHandBack_seq (p : Part) : (elementsHandBack p).seq = p.seq := rfl
@[simp] theorem elementsHandBack_entries (p : Part) : (elementsHandBack p).entries = p.entries := rfl
@[simp] theorem elementsHandBack_posture (p : Part) : (elementsHandBack p).posture = p.posture := rfl
@[simp] theorem elementsHandBack_table (p : Part) : (elementsHandBack p).table = p.table := rfl
@[simp] theorem elementsHandBack_hunt (p : Part) : (elementsHandBack p).hunt = p.hunt := rfl
@[simp] theorem elementsHandBack_records (p : Part) : (elementsHandBack p).records = p.records := rfl
@[simp] theorem elementsHandBack_notices (p : Part) : (elementsHandBack p).notices = p.notices := rfl
@[simp] theorem elementsHandBack_links (p : Part) : (elementsHandBack p).links = p.links := rfl
@[simp] theorem elementsHandBack_store (p : Part) : (elementsHandBack p).store = p.store := rfl

@[simp] theorem closeEnded_started (p : Part) : (closeEnded p).started = p.started := rfl
@[simp] theorem closeEnded_coldInput (p : Part) : (closeEnded p).coldInput = p.coldInput := rfl
@[simp] theorem closeEnded_clock (p : Part) : (closeEnded p).clock = p.clock := rfl
@[simp] theorem closeEnded_intake (p : Part) : (closeEnded p).intake = p.intake := rfl
@[simp] theorem closeEnded_elements (p : Part) : (closeEnded p).elements = { p.elements with closeKind := .none, mode := .normal } := rfl
@[simp] theorem closeEnded_mech (p : Part) : (closeEnded p).mech = p.mech := rfl
@[simp] theorem closeEnded_seq (p : Part) : (closeEnded p).seq = p.seq := rfl
@[simp] theorem closeEnded_entries (p : Part) : (closeEnded p).entries = p.entries := rfl
@[simp] theorem closeEnded_posture (p : Part) : (closeEnded p).posture = p.posture := rfl
@[simp] theorem closeEnded_table (p : Part) : (closeEnded p).table = p.table := rfl
@[simp] theorem closeEnded_hunt (p : Part) : (closeEnded p).hunt = p.hunt := rfl
@[simp] theorem closeEnded_records (p : Part) : (closeEnded p).records = p.records := rfl
@[simp] theorem closeEnded_notices (p : Part) : (closeEnded p).notices = p.notices := rfl
@[simp] theorem closeEnded_links (p : Part) : (closeEnded p).links = p.links := rfl
@[simp] theorem closeEnded_store (p : Part) : (closeEnded p).store = p.store := rfl

@[simp] theorem giveAnswer_started (k : LinkId) (r : Request) (reply : Reply) (p : Part) : (giveAnswer k r reply p).started = p.started := rfl
@[simp] theorem giveAnswer_coldInput (k : LinkId) (r : Request) (reply : Reply) (p : Part) : (giveAnswer k r reply p).coldInput = p.coldInput := rfl
@[simp] theorem giveAnswer_clock (k : LinkId) (r : Request) (reply : Reply) (p : Part) : (giveAnswer k r reply p).clock = p.clock := rfl
@[simp] theorem giveAnswer_intake (k : LinkId) (r : Request) (reply : Reply) (p : Part) : (giveAnswer k r reply p).intake = p.intake := rfl
@[simp] theorem giveAnswer_elements (k : LinkId) (r : Request) (reply : Reply) (p : Part) : (giveAnswer k r reply p).elements = p.elements := rfl
@[simp] theorem giveAnswer_mech (k : LinkId) (r : Request) (reply : Reply) (p : Part) : (giveAnswer k r reply p).mech = p.mech := rfl
@[simp] theorem giveAnswer_seq (k : LinkId) (r : Request) (reply : Reply) (p : Part) : (giveAnswer k r reply p).seq = p.seq := rfl
@[simp] theorem giveAnswer_entries (k : LinkId) (r : Request) (reply : Reply) (p : Part) : (giveAnswer k r reply p).entries = p.entries := rfl
@[simp] theorem giveAnswer_posture (k : LinkId) (r : Request) (reply : Reply) (p : Part) : (giveAnswer k r reply p).posture = p.posture := rfl
@[simp] theorem giveAnswer_table (k : LinkId) (r : Request) (reply : Reply) (p : Part) : (giveAnswer k r reply p).table = p.table := rfl
@[simp] theorem giveAnswer_hunt (k : LinkId) (r : Request) (reply : Reply) (p : Part) : (giveAnswer k r reply p).hunt = p.hunt := rfl
@[simp] theorem giveAnswer_records (k : LinkId) (r : Request) (reply : Reply) (p : Part) : (giveAnswer k r reply p).records = p.records := rfl
@[simp] theorem giveAnswer_notices (k : LinkId) (r : Request) (reply : Reply) (p : Part) : (giveAnswer k r reply p).notices = p.notices := rfl
@[simp] theorem giveAnswer_links (k : LinkId) (r : Request) (reply : Reply) (p : Part) : (giveAnswer k r reply p).links = p.links.set k { p.links.get k with answer := some ⟨reply.frame r.code, reply.held⟩ } := rfl
@[simp] theorem giveAnswer_store (k : LinkId) (r : Request) (reply : Reply) (p : Part) : (giveAnswer k r reply p).store = p.store := rfl

@[simp] theorem Part.answer_started (p : Part) (k : LinkId) (r : Request) (reply : Reply) : (p.answer k r reply).started = p.started := rfl
@[simp] theorem Part.answer_coldInput (p : Part) (k : LinkId) (r : Request) (reply : Reply) : (p.answer k r reply).coldInput = p.coldInput := rfl
@[simp] theorem Part.answer_clock (p : Part) (k : LinkId) (r : Request) (reply : Reply) : (p.answer k r reply).clock = p.clock := rfl
@[simp] theorem Part.answer_intake (p : Part) (k : LinkId) (r : Request) (reply : Reply) : (p.answer k r reply).intake = p.intake := rfl
@[simp] theorem Part.answer_elements (p : Part) (k : LinkId) (r : Request) (reply : Reply) : (p.answer k r reply).elements = p.elements := rfl
@[simp] theorem Part.answer_mech (p : Part) (k : LinkId) (r : Request) (reply : Reply) : (p.answer k r reply).mech = p.mech := rfl
@[simp] theorem Part.answer_seq (p : Part) (k : LinkId) (r : Request) (reply : Reply) : (p.answer k r reply).seq = p.seq := rfl
@[simp] theorem Part.answer_entries (p : Part) (k : LinkId) (r : Request) (reply : Reply) : (p.answer k r reply).entries = p.entries := rfl
@[simp] theorem Part.answer_posture (p : Part) (k : LinkId) (r : Request) (reply : Reply) : (p.answer k r reply).posture = p.posture := rfl
@[simp] theorem Part.answer_table (p : Part) (k : LinkId) (r : Request) (reply : Reply) : (p.answer k r reply).table = p.table := rfl
@[simp] theorem Part.answer_hunt (p : Part) (k : LinkId) (r : Request) (reply : Reply) : (p.answer k r reply).hunt = p.hunt := rfl
@[simp] theorem Part.answer_records (p : Part) (k : LinkId) (r : Request) (reply : Reply) : (p.answer k r reply).records = p.records := rfl
@[simp] theorem Part.answer_notices (p : Part) (k : LinkId) (r : Request) (reply : Reply) : (p.answer k r reply).notices = p.notices := rfl
@[simp] theorem Part.answer_links (p : Part) (k : LinkId) (r : Request) (reply : Reply) : (p.answer k r reply).links = p.links.set k { p.links.get k with answer := some ⟨reply.frame r.code, reply.held⟩ } := rfl
@[simp] theorem Part.answer_store (p : Part) (k : LinkId) (r : Request) (reply : Reply) : (p.answer k r reply).store = p.store := rfl

@[simp] theorem State.withPart_toPart (s : State) (q : Part) : (s.withPart q).toPart = q := rfl
@[simp] theorem State.withPart_pending (s : State) (q : Part) : (s.withPart q).pending = s.pending := rfl
@[simp] theorem State.withPart_self (s : State) : s.withPart s.toPart = s := rfl
@[simp] theorem State.withPart_withPart (s : State) (p q : Part) : (s.withPart p).withPart q = s.withPart q := rfl

end Sys2Proof.Machine
end

