-- ==== Sys2Proof/Laws/Frames.lean ====
section
/-! SUPPORT. What each operation leaves untouched, one simp lemma per operation: the kinds of state that no part of it writes.
-/

namespace Sys2Proof.Machine

@[simp] theorem latch_frame (k : NoticeKind) (m : Master) (p : Part) :
    (latch k m p).started = p.started ∧ (latch k m p).coldInput = p.coldInput ∧ (latch k m p).clock = p.clock ∧
    (latch k m p).intake = p.intake ∧ (latch k m p).elements = p.elements ∧ (latch k m p).mech = p.mech ∧
    (latch k m p).seq = p.seq ∧ (latch k m p).entries = p.entries ∧ (latch k m p).posture = p.posture ∧
    (latch k m p).table = p.table ∧ (latch k m p).hunt = p.hunt ∧ (latch k m p).records = p.records ∧
    (latch k m p).links = p.links ∧ (latch k m p).store = p.store := by
  unfold latch
  simp

@[simp] theorem raise_frame (k : NoticeKind) (p : Part) :
    (raise k p).started = p.started ∧ (raise k p).coldInput = p.coldInput ∧ (raise k p).clock = p.clock ∧
    (raise k p).intake = p.intake ∧ (raise k p).elements = p.elements ∧ (raise k p).mech = p.mech ∧
    (raise k p).seq = p.seq ∧ (raise k p).entries = p.entries ∧ (raise k p).posture = p.posture ∧
    (raise k p).table = p.table ∧ (raise k p).hunt = p.hunt ∧ (raise k p).records = p.records ∧
    (raise k p).links = p.links ∧ (raise k p).store = p.store := by
  unfold raise
  (repeat' split) <;> simp

@[simp] theorem raiseLinkFault_frame (k : LinkId) (p : Part) :
    (raiseLinkFault k p).started = p.started ∧ (raiseLinkFault k p).coldInput = p.coldInput ∧
    (raiseLinkFault k p).clock = p.clock ∧ (raiseLinkFault k p).intake = p.intake ∧
    (raiseLinkFault k p).elements = p.elements ∧ (raiseLinkFault k p).mech = p.mech ∧
    (raiseLinkFault k p).seq = p.seq ∧ (raiseLinkFault k p).entries = p.entries ∧
    (raiseLinkFault k p).posture = p.posture ∧ (raiseLinkFault k p).table = p.table ∧
    (raiseLinkFault k p).hunt = p.hunt ∧ (raiseLinkFault k p).records = p.records ∧
    (raiseLinkFault k p).links = p.links ∧ (raiseLinkFault k p).store = p.store := by
  unfold raiseLinkFault
  (repeat' split) <;> simp

@[simp] theorem writeRecord_frame (f : TripFields) (p : Part) :
    (writeRecord f p).started = p.started ∧ (writeRecord f p).coldInput = p.coldInput ∧
    (writeRecord f p).clock = p.clock ∧ (writeRecord f p).intake = p.intake ∧ (writeRecord f p).mech = p.mech ∧
    (writeRecord f p).seq = p.seq ∧ (writeRecord f p).entries = p.entries ∧ (writeRecord f p).posture = p.posture ∧
    (writeRecord f p).table = p.table ∧ (writeRecord f p).hunt = p.hunt ∧ (writeRecord f p).links = p.links ∧
    (writeRecord f p).store = p.store := by
  unfold writeRecord
  simp

@[simp] theorem completeRecord_frame (o : OpeningOutcome) (p : Part) :
    (completeRecord o p).started = p.started ∧ (completeRecord o p).coldInput = p.coldInput ∧
    (completeRecord o p).clock = p.clock ∧ (completeRecord o p).intake = p.intake ∧
    (completeRecord o p).elements = p.elements ∧ (completeRecord o p).mech = p.mech ∧
    (completeRecord o p).seq = p.seq ∧ (completeRecord o p).entries = p.entries ∧
    (completeRecord o p).posture = p.posture ∧ (completeRecord o p).table = p.table ∧
    (completeRecord o p).hunt = p.hunt ∧ (completeRecord o p).notices = p.notices ∧
    (completeRecord o p).links = p.links ∧ (completeRecord o p).store = p.store := by
  unfold completeRecord
  (repeat' split) <;> simp

@[simp] theorem beginWrite_frame (p : Part) :
    (beginWrite p).started = p.started ∧ (beginWrite p).coldInput = p.coldInput ∧ (beginWrite p).clock = p.clock ∧
    (beginWrite p).intake = p.intake ∧ (beginWrite p).elements = p.elements ∧ (beginWrite p).mech = p.mech ∧
    (beginWrite p).seq = p.seq ∧ (beginWrite p).entries = p.entries ∧ (beginWrite p).posture = p.posture ∧
    (beginWrite p).table = p.table ∧ (beginWrite p).hunt = p.hunt ∧ (beginWrite p).records = p.records ∧
    (beginWrite p).notices = p.notices ∧ (beginWrite p).links = p.links := by
  unfold beginWrite
  (repeat' split) <;> simp

@[simp] theorem queueWrite_frame (w : Write) (k : Option LinkId) (p : Part) :
    (queueWrite w k p).started = p.started ∧ (queueWrite w k p).coldInput = p.coldInput ∧
    (queueWrite w k p).clock = p.clock ∧ (queueWrite w k p).intake = p.intake ∧
    (queueWrite w k p).elements = p.elements ∧ (queueWrite w k p).mech = p.mech ∧ (queueWrite w k p).seq = p.seq ∧
    (queueWrite w k p).entries = p.entries ∧ (queueWrite w k p).posture = p.posture ∧
    (queueWrite w k p).table = p.table ∧ (queueWrite w k p).hunt = p.hunt ∧ (queueWrite w k p).records = p.records ∧
    (queueWrite w k p).notices = p.notices ∧ (queueWrite w k p).links = p.links := by
  unfold queueWrite
  simp

@[simp] theorem elementsOpened_frame (p : Part) :
    (elementsOpened p).started = p.started ∧ (elementsOpened p).coldInput = p.coldInput ∧
    (elementsOpened p).clock = p.clock ∧ (elementsOpened p).intake = p.intake ∧ (elementsOpened p).mech = p.mech ∧
    (elementsOpened p).seq = p.seq ∧ (elementsOpened p).entries = p.entries ∧ (elementsOpened p).posture = p.posture ∧
    (elementsOpened p).table = p.table ∧ (elementsOpened p).hunt = p.hunt ∧ (elementsOpened p).records = p.records ∧
    (elementsOpened p).notices = p.notices ∧ (elementsOpened p).links = p.links ∧
    (elementsOpened p).store = p.store := by
  unfold elementsOpened
  (repeat' split) <;> simp

@[simp] theorem elementsClosed_frame (byOrder : Bool) (p : Part) :
    (elementsClosed byOrder p).started = p.started ∧ (elementsClosed byOrder p).coldInput = p.coldInput ∧
    (elementsClosed byOrder p).clock = p.clock ∧ (elementsClosed byOrder p).intake = p.intake ∧
    (elementsClosed byOrder p).mech = p.mech ∧ (elementsClosed byOrder p).seq = p.seq ∧
    (elementsClosed byOrder p).entries = p.entries ∧ (elementsClosed byOrder p).posture = p.posture ∧
    (elementsClosed byOrder p).table = p.table ∧ (elementsClosed byOrder p).hunt = p.hunt ∧
    (elementsClosed byOrder p).records = p.records ∧ (elementsClosed byOrder p).notices = p.notices ∧
    (elementsClosed byOrder p).links = p.links ∧ (elementsClosed byOrder p).store = p.store := by
  unfold elementsClosed
  (repeat' split) <;> simp

@[simp] theorem closeKindNamed_frame (kind : CloseKind) (p : Part) :
    (closeKindNamed kind p).started = p.started ∧ (closeKindNamed kind p).coldInput = p.coldInput ∧
    (closeKindNamed kind p).clock = p.clock ∧ (closeKindNamed kind p).intake = p.intake ∧
    (closeKindNamed kind p).mech = p.mech ∧ (closeKindNamed kind p).seq = p.seq ∧
    (closeKindNamed kind p).entries = p.entries ∧ (closeKindNamed kind p).posture = p.posture ∧
    (closeKindNamed kind p).table = p.table ∧ (closeKindNamed kind p).hunt = p.hunt ∧
    (closeKindNamed kind p).records = p.records ∧ (closeKindNamed kind p).notices = p.notices ∧
    (closeKindNamed kind p).links = p.links ∧ (closeKindNamed kind p).store = p.store := by
  unfold closeKindNamed
  (repeat' split) <;> simp

@[simp] theorem elementsSettings_frame (p : Part) :
    (elementsSettings p).started = p.started ∧ (elementsSettings p).coldInput = p.coldInput ∧
    (elementsSettings p).clock = p.clock ∧ (elementsSettings p).intake = p.intake ∧
    (elementsSettings p).mech = p.mech ∧ (elementsSettings p).seq = p.seq ∧ (elementsSettings p).entries = p.entries ∧
    (elementsSettings p).posture = p.posture ∧ (elementsSettings p).table = p.table ∧
    (elementsSettings p).hunt = p.hunt ∧ (elementsSettings p).records = p.records ∧
    (elementsSettings p).notices = p.notices ∧ (elementsSettings p).links = p.links ∧
    (elementsSettings p).store = p.store := by
  unfold elementsSettings
  (repeat' split) <;> simp

@[simp] theorem endOrder_frame (p : Part) :
    (endOrder p).started = p.started ∧ (endOrder p).coldInput = p.coldInput ∧ (endOrder p).clock = p.clock ∧
    (endOrder p).intake = p.intake ∧ (endOrder p).elements = p.elements ∧ (endOrder p).seq = p.seq ∧
    (endOrder p).entries = p.entries ∧ (endOrder p).posture = p.posture ∧ (endOrder p).table = p.table ∧
    (endOrder p).hunt = p.hunt ∧ (endOrder p).records = p.records ∧ (endOrder p).notices = p.notices ∧
    (endOrder p).links = p.links ∧ (endOrder p).store = p.store := by
  unfold endOrder
  (repeat' split) <;> simp

@[simp] theorem tripFreeTaken_frame (by' : Option Placer) (p : Part) :
    (tripFreeTaken by' p).started = p.started ∧ (tripFreeTaken by' p).coldInput = p.coldInput ∧
    (tripFreeTaken by' p).clock = p.clock ∧ (tripFreeTaken by' p).intake = p.intake ∧
    (tripFreeTaken by' p).elements = p.elements ∧ (tripFreeTaken by' p).mech = p.mech ∧
    (tripFreeTaken by' p).entries = p.entries ∧ (tripFreeTaken by' p).posture = p.posture ∧
    (tripFreeTaken by' p).table = p.table ∧ (tripFreeTaken by' p).hunt = p.hunt ∧
    (tripFreeTaken by' p).records = p.records ∧ (tripFreeTaken by' p).notices = p.notices ∧
    (tripFreeTaken by' p).links = p.links ∧ (tripFreeTaken by' p).store = p.store := by
  unfold tripFreeTaken
  (repeat' split) <;> simp

@[simp] theorem tripFree_frame (p : Part) :
    (tripFree p).started = p.started ∧ (tripFree p).coldInput = p.coldInput ∧ (tripFree p).clock = p.clock ∧
    (tripFree p).intake = p.intake ∧ (tripFree p).entries = p.entries ∧ (tripFree p).posture = p.posture ∧
    (tripFree p).table = p.table ∧ (tripFree p).hunt = p.hunt ∧ (tripFree p).records = p.records ∧
    (tripFree p).notices = p.notices ∧ (tripFree p).links = p.links ∧ (tripFree p).store = p.store := by
  unfold tripFree
  simp

@[simp] theorem beginTrip_frame (by' : Placer) (p : Part) :
    (beginTrip by' p).1.started = p.started ∧ (beginTrip by' p).1.coldInput = p.coldInput ∧
    (beginTrip by' p).1.clock = p.clock ∧ (beginTrip by' p).1.intake = p.intake ∧
    (beginTrip by' p).1.elements = p.elements ∧ (beginTrip by' p).1.seq = p.seq ∧
    (beginTrip by' p).1.entries = p.entries ∧ (beginTrip by' p).1.posture = p.posture ∧
    (beginTrip by' p).1.table = p.table ∧ (beginTrip by' p).1.hunt = p.hunt ∧
    (beginTrip by' p).1.records = p.records ∧ (beginTrip by' p).1.notices = p.notices ∧
    (beginTrip by' p).1.links = p.links ∧ (beginTrip by' p).1.store = p.store := by
  unfold beginTrip
  (repeat' split) <;> simp

@[simp] theorem placeTrip_frame (by' : Placer) (p : Part) :
    (placeTrip by' p).1.started = p.started ∧ (placeTrip by' p).1.coldInput = p.coldInput ∧
    (placeTrip by' p).1.clock = p.clock ∧ (placeTrip by' p).1.intake = p.intake ∧
    (placeTrip by' p).1.entries = p.entries ∧ (placeTrip by' p).1.posture = p.posture ∧
    (placeTrip by' p).1.table = p.table ∧ (placeTrip by' p).1.hunt = p.hunt ∧
    (placeTrip by' p).1.records = p.records ∧ (placeTrip by' p).1.notices = p.notices ∧
    (placeTrip by' p).1.links = p.links ∧ (placeTrip by' p).1.store = p.store := by
  unfold placeTrip
  (repeat' split) <;> simp

@[simp] theorem placeClose_frame (by' : Placer) (kind : CloseKind) (p : Part) :
    (placeClose by' kind p).1.started = p.started ∧ (placeClose by' kind p).1.coldInput = p.coldInput ∧
    (placeClose by' kind p).1.clock = p.clock ∧ (placeClose by' kind p).1.intake = p.intake ∧
    (placeClose by' kind p).1.seq = p.seq ∧ (placeClose by' kind p).1.entries = p.entries ∧
    (placeClose by' kind p).1.posture = p.posture ∧ (placeClose by' kind p).1.table = p.table ∧
    (placeClose by' kind p).1.hunt = p.hunt ∧ (placeClose by' kind p).1.records = p.records ∧
    (placeClose by' kind p).1.notices = p.notices ∧ (placeClose by' kind p).1.links = p.links ∧
    (placeClose by' kind p).1.store = p.store := by
  unfold placeClose
  (repeat' split) <;> simp

@[simp] theorem enterLockout_frame (r : LockoutReason) (p : Part) :
    (enterLockout r p).started = p.started ∧ (enterLockout r p).coldInput = p.coldInput ∧
    (enterLockout r p).clock = p.clock ∧ (enterLockout r p).intake = p.intake ∧
    (enterLockout r p).elements = p.elements ∧ (enterLockout r p).mech = p.mech ∧
    (enterLockout r p).entries = p.entries ∧ (enterLockout r p).posture = p.posture ∧
    (enterLockout r p).table = p.table ∧ (enterLockout r p).hunt = p.hunt ∧ (enterLockout r p).records = p.records ∧
    (enterLockout r p).links = p.links ∧ (enterLockout r p).store = p.store := by
  unfold enterLockout
  simp

@[simp] theorem enterFailed_frame (p : Part) :
    (enterFailed p).started = p.started ∧ (enterFailed p).coldInput = p.coldInput ∧ (enterFailed p).clock = p.clock ∧
    (enterFailed p).intake = p.intake ∧ (enterFailed p).elements = p.elements ∧ (enterFailed p).mech = p.mech ∧
    (enterFailed p).entries = p.entries ∧ (enterFailed p).posture = p.posture ∧ (enterFailed p).table = p.table ∧
    (enterFailed p).hunt = p.hunt ∧ (enterFailed p).records = p.records ∧ (enterFailed p).notices = p.notices ∧
    (enterFailed p).links = p.links ∧ (enterFailed p).store = p.store := by
  unfold enterFailed
  simp

@[simp] theorem enterClosed_frame (p : Part) :
    (enterClosed p).started = p.started ∧ (enterClosed p).coldInput = p.coldInput ∧ (enterClosed p).clock = p.clock ∧
    (enterClosed p).intake = p.intake ∧ (enterClosed p).elements = p.elements ∧ (enterClosed p).mech = p.mech ∧
    (enterClosed p).entries = p.entries ∧ (enterClosed p).posture = p.posture ∧ (enterClosed p).table = p.table ∧
    (enterClosed p).hunt = p.hunt ∧ (enterClosed p).records = p.records ∧ (enterClosed p).notices = p.notices ∧
    (enterClosed p).links = p.links ∧ (enterClosed p).store = p.store := by
  unfold enterClosed
  simp

@[simp] theorem seqPositionFailure_frame (p : Part) :
    (seqPositionFailure p).started = p.started ∧ (seqPositionFailure p).coldInput = p.coldInput ∧
    (seqPositionFailure p).clock = p.clock ∧ (seqPositionFailure p).intake = p.intake ∧
    (seqPositionFailure p).elements = p.elements ∧ (seqPositionFailure p).mech = p.mech ∧
    (seqPositionFailure p).entries = p.entries ∧ (seqPositionFailure p).posture = p.posture ∧
    (seqPositionFailure p).table = p.table ∧ (seqPositionFailure p).hunt = p.hunt ∧
    (seqPositionFailure p).records = p.records ∧ (seqPositionFailure p).notices = p.notices ∧
    (seqPositionFailure p).links = p.links ∧ (seqPositionFailure p).store = p.store := by
  unfold seqPositionFailure
  (repeat' split) <;> simp

@[simp] theorem seqBlockPlaced_frame (k : BlockKind) (p : Part) :
    (seqBlockPlaced k p).started = p.started ∧ (seqBlockPlaced k p).coldInput = p.coldInput ∧
    (seqBlockPlaced k p).clock = p.clock ∧ (seqBlockPlaced k p).intake = p.intake ∧
    (seqBlockPlaced k p).elements = p.elements ∧ (seqBlockPlaced k p).mech = p.mech ∧
    (seqBlockPlaced k p).entries = p.entries ∧ (seqBlockPlaced k p).posture = p.posture ∧
    (seqBlockPlaced k p).table = p.table ∧ (seqBlockPlaced k p).hunt = p.hunt ∧
    (seqBlockPlaced k p).records = p.records ∧ (seqBlockPlaced k p).links = p.links ∧
    (seqBlockPlaced k p).store = p.store := by
  unfold seqBlockPlaced
  (repeat' split) <;> simp

@[simp] theorem seqHandBack_frame (named : HandBack) (p : Part) :
    (seqHandBack named p).started = p.started ∧ (seqHandBack named p).coldInput = p.coldInput ∧
    (seqHandBack named p).clock = p.clock ∧ (seqHandBack named p).intake = p.intake ∧
    (seqHandBack named p).elements = p.elements ∧ (seqHandBack named p).mech = p.mech ∧
    (seqHandBack named p).entries = p.entries ∧ (seqHandBack named p).posture = p.posture ∧
    (seqHandBack named p).table = p.table ∧ (seqHandBack named p).hunt = p.hunt ∧
    (seqHandBack named p).records = p.records ∧ (seqHandBack named p).links = p.links ∧
    (seqHandBack named p).store = p.store := by
  unfold seqHandBack
  (repeat' split) <;> simp

@[simp] theorem enterCloseWait_frame (p : Part) :
    (enterCloseWait p).started = p.started ∧ (enterCloseWait p).coldInput = p.coldInput ∧
    (enterCloseWait p).clock = p.clock ∧ (enterCloseWait p).intake = p.intake ∧
    (enterCloseWait p).elements = p.elements ∧ (enterCloseWait p).mech = p.mech ∧
    (enterCloseWait p).entries = p.entries ∧ (enterCloseWait p).posture = p.posture ∧
    (enterCloseWait p).table = p.table ∧ (enterCloseWait p).hunt = p.hunt ∧ (enterCloseWait p).records = p.records ∧
    (enterCloseWait p).notices = p.notices ∧ (enterCloseWait p).links = p.links ∧
    (enterCloseWait p).store = p.store := by
  unfold enterCloseWait
  simp

@[simp] theorem automaticClose_frame (p : Part) :
    (automaticClose p).started = p.started ∧ (automaticClose p).coldInput = p.coldInput ∧
    (automaticClose p).clock = p.clock ∧ (automaticClose p).intake = p.intake ∧
    (automaticClose p).entries = p.entries ∧ (automaticClose p).posture = p.posture ∧
    (automaticClose p).table = p.table ∧ (automaticClose p).hunt = p.hunt ∧ (automaticClose p).records = p.records ∧
    (automaticClose p).links = p.links ∧ (automaticClose p).store = p.store := by
  unfold automaticClose
  have h := placeClose_frame .sequencer .automatic p
  rcases hx : placeClose .sequencer .automatic p with ⟨q, x⟩
  rw [hx] at h
  simp only at h
  (repeat' split) <;> simp_all

@[simp] theorem deadTimeEnded_frame (p : Part) :
    (deadTimeEnded p).started = p.started ∧ (deadTimeEnded p).coldInput = p.coldInput ∧
    (deadTimeEnded p).clock = p.clock ∧ (deadTimeEnded p).intake = p.intake ∧ (deadTimeEnded p).entries = p.entries ∧
    (deadTimeEnded p).posture = p.posture ∧ (deadTimeEnded p).table = p.table ∧ (deadTimeEnded p).hunt = p.hunt ∧
    (deadTimeEnded p).records = p.records ∧ (deadTimeEnded p).links = p.links ∧
    (deadTimeEnded p).store = p.store := by
  unfold deadTimeEnded
  dsimp only
  (repeat' split) <;> simp

@[simp] theorem seqConditionsChanged_frame (p : Part) :
    (seqConditionsChanged p).started = p.started ∧ (seqConditionsChanged p).coldInput = p.coldInput ∧
    (seqConditionsChanged p).clock = p.clock ∧ (seqConditionsChanged p).intake = p.intake ∧
    (seqConditionsChanged p).entries = p.entries ∧ (seqConditionsChanged p).posture = p.posture ∧
    (seqConditionsChanged p).table = p.table ∧ (seqConditionsChanged p).hunt = p.hunt ∧
    (seqConditionsChanged p).records = p.records ∧ (seqConditionsChanged p).links = p.links ∧
    (seqConditionsChanged p).store = p.store := by
  unfold seqConditionsChanged
  (repeat' split) <;> simp

@[simp] theorem closeWaitEnded_frame (p : Part) :
    (closeWaitEnded p).started = p.started ∧ (closeWaitEnded p).coldInput = p.coldInput ∧
    (closeWaitEnded p).clock = p.clock ∧ (closeWaitEnded p).intake = p.intake ∧
    (closeWaitEnded p).elements = p.elements ∧ (closeWaitEnded p).mech = p.mech ∧
    (closeWaitEnded p).entries = p.entries ∧ (closeWaitEnded p).posture = p.posture ∧
    (closeWaitEnded p).table = p.table ∧ (closeWaitEnded p).hunt = p.hunt ∧ (closeWaitEnded p).records = p.records ∧
    (closeWaitEnded p).links = p.links ∧ (closeWaitEnded p).store = p.store := by
  unfold closeWaitEnded
  dsimp only
  (repeat' split) <;> simp

@[simp] theorem reclaimEnded_frame (p : Part) :
    (reclaimEnded p).started = p.started ∧ (reclaimEnded p).coldInput = p.coldInput ∧
    (reclaimEnded p).clock = p.clock ∧ (reclaimEnded p).intake = p.intake ∧ (reclaimEnded p).elements = p.elements ∧
    (reclaimEnded p).mech = p.mech ∧ (reclaimEnded p).entries = p.entries ∧ (reclaimEnded p).posture = p.posture ∧
    (reclaimEnded p).table = p.table ∧ (reclaimEnded p).hunt = p.hunt ∧ (reclaimEnded p).records = p.records ∧
    (reclaimEnded p).links = p.links ∧ (reclaimEnded p).store = p.store := by
  unfold reclaimEnded
  dsimp only
  (repeat' split) <;> simp

@[simp] theorem seqCloseDone_frame (p : Part) :
    (seqCloseDone p).started = p.started ∧ (seqCloseDone p).coldInput = p.coldInput ∧
    (seqCloseDone p).clock = p.clock ∧ (seqCloseDone p).intake = p.intake ∧ (seqCloseDone p).elements = p.elements ∧
    (seqCloseDone p).mech = p.mech ∧ (seqCloseDone p).entries = p.entries ∧ (seqCloseDone p).posture = p.posture ∧
    (seqCloseDone p).table = p.table ∧ (seqCloseDone p).hunt = p.hunt ∧ (seqCloseDone p).records = p.records ∧
    (seqCloseDone p).notices = p.notices ∧ (seqCloseDone p).links = p.links ∧ (seqCloseDone p).store = p.store := by
  unfold seqCloseDone
  (repeat' split) <;> simp

@[simp] theorem seqCloseFailed_frame (p : Part) :
    (seqCloseFailed p).started = p.started ∧ (seqCloseFailed p).coldInput = p.coldInput ∧
    (seqCloseFailed p).clock = p.clock ∧ (seqCloseFailed p).intake = p.intake ∧
    (seqCloseFailed p).elements = p.elements ∧ (seqCloseFailed p).mech = p.mech ∧
    (seqCloseFailed p).entries = p.entries ∧ (seqCloseFailed p).posture = p.posture ∧
    (seqCloseFailed p).table = p.table ∧ (seqCloseFailed p).hunt = p.hunt ∧ (seqCloseFailed p).records = p.records ∧
    (seqCloseFailed p).notices = p.notices ∧ (seqCloseFailed p).links = p.links ∧
    (seqCloseFailed p).store = p.store := by
  unfold seqCloseFailed
  (repeat' split) <;> simp

@[simp] theorem seqReleased_frame (p : Part) :
    (seqReleased p).started = p.started ∧ (seqReleased p).coldInput = p.coldInput ∧ (seqReleased p).clock = p.clock ∧
    (seqReleased p).intake = p.intake ∧ (seqReleased p).elements = p.elements ∧ (seqReleased p).mech = p.mech ∧
    (seqReleased p).entries = p.entries ∧ (seqReleased p).posture = p.posture ∧ (seqReleased p).table = p.table ∧
    (seqReleased p).hunt = p.hunt ∧ (seqReleased p).records = p.records ∧ (seqReleased p).links = p.links ∧
    (seqReleased p).store = p.store := by
  unfold seqReleased
  (repeat' split) <;> simp

@[simp] theorem seqTripFailed_frame (p : Part) :
    (seqTripFailed p).started = p.started ∧ (seqTripFailed p).coldInput = p.coldInput ∧
    (seqTripFailed p).clock = p.clock ∧ (seqTripFailed p).intake = p.intake ∧
    (seqTripFailed p).elements = p.elements ∧ (seqTripFailed p).mech = p.mech ∧
    (seqTripFailed p).entries = p.entries ∧ (seqTripFailed p).posture = p.posture ∧
    (seqTripFailed p).table = p.table ∧ (seqTripFailed p).hunt = p.hunt ∧ (seqTripFailed p).records = p.records ∧
    (seqTripFailed p).notices = p.notices ∧ (seqTripFailed p).links = p.links ∧
    (seqTripFailed p).store = p.store := by
  unfold seqTripFailed
  (repeat' split) <;> simp

@[simp] theorem seqLevelChanged_frame (p : Part) :
    (seqLevelChanged p).started = p.started ∧ (seqLevelChanged p).coldInput = p.coldInput ∧
    (seqLevelChanged p).clock = p.clock ∧ (seqLevelChanged p).intake = p.intake ∧
    (seqLevelChanged p).elements = p.elements ∧ (seqLevelChanged p).mech = p.mech ∧
    (seqLevelChanged p).entries = p.entries ∧ (seqLevelChanged p).posture = p.posture ∧
    (seqLevelChanged p).table = p.table ∧ (seqLevelChanged p).hunt = p.hunt ∧
    (seqLevelChanged p).records = p.records ∧ (seqLevelChanged p).links = p.links ∧
    (seqLevelChanged p).store = p.store := by
  unfold seqLevelChanged
  (repeat' split) <;> simp

@[simp] theorem seqRetimeShot_frame (k : Nat) (p : Part) :
    (seqRetimeShot k p).started = p.started ∧ (seqRetimeShot k p).coldInput = p.coldInput ∧
    (seqRetimeShot k p).clock = p.clock ∧ (seqRetimeShot k p).intake = p.intake ∧
    (seqRetimeShot k p).entries = p.entries ∧ (seqRetimeShot k p).posture = p.posture ∧
    (seqRetimeShot k p).table = p.table ∧ (seqRetimeShot k p).hunt = p.hunt ∧
    (seqRetimeShot k p).records = p.records ∧ (seqRetimeShot k p).links = p.links ∧
    (seqRetimeShot k p).store = p.store := by
  unfold seqRetimeShot
  (repeat' split) <;> simp

@[simp] theorem seqRetimeReclaim_frame (p : Part) :
    (seqRetimeReclaim p).started = p.started ∧ (seqRetimeReclaim p).coldInput = p.coldInput ∧
    (seqRetimeReclaim p).clock = p.clock ∧ (seqRetimeReclaim p).intake = p.intake ∧
    (seqRetimeReclaim p).elements = p.elements ∧ (seqRetimeReclaim p).mech = p.mech ∧
    (seqRetimeReclaim p).entries = p.entries ∧ (seqRetimeReclaim p).posture = p.posture ∧
    (seqRetimeReclaim p).table = p.table ∧ (seqRetimeReclaim p).hunt = p.hunt ∧
    (seqRetimeReclaim p).records = p.records ∧ (seqRetimeReclaim p).links = p.links ∧
    (seqRetimeReclaim p).store = p.store := by
  unfold seqRetimeReclaim
  (repeat' split) <;> simp

@[simp] theorem seqSettingsChanged_frame (p : Part) :
    (seqSettingsChanged p).started = p.started ∧ (seqSettingsChanged p).coldInput = p.coldInput ∧
    (seqSettingsChanged p).clock = p.clock ∧ (seqSettingsChanged p).intake = p.intake ∧
    (seqSettingsChanged p).entries = p.entries ∧ (seqSettingsChanged p).posture = p.posture ∧
    (seqSettingsChanged p).table = p.table ∧ (seqSettingsChanged p).hunt = p.hunt ∧
    (seqSettingsChanged p).records = p.records ∧ (seqSettingsChanged p).links = p.links ∧
    (seqSettingsChanged p).store = p.store := by
  unfold seqSettingsChanged
  (repeat' split) <;> simp

@[simp] theorem seqMechanismReset_frame (p : Part) :
    (seqMechanismReset p).started = p.started ∧ (seqMechanismReset p).coldInput = p.coldInput ∧
    (seqMechanismReset p).clock = p.clock ∧ (seqMechanismReset p).intake = p.intake ∧
    (seqMechanismReset p).elements = p.elements ∧ (seqMechanismReset p).mech = p.mech ∧
    (seqMechanismReset p).entries = p.entries ∧ (seqMechanismReset p).posture = p.posture ∧
    (seqMechanismReset p).table = p.table ∧ (seqMechanismReset p).hunt = p.hunt ∧
    (seqMechanismReset p).records = p.records ∧ (seqMechanismReset p).links = p.links ∧
    (seqMechanismReset p).store = p.store := by
  unfold seqMechanismReset
  (repeat' split) <;> simp

@[simp] theorem seqExternalOpen_frame (p : Part) :
    (seqExternalOpen p).started = p.started ∧ (seqExternalOpen p).coldInput = p.coldInput ∧
    (seqExternalOpen p).clock = p.clock ∧ (seqExternalOpen p).intake = p.intake ∧
    (seqExternalOpen p).elements = p.elements ∧ (seqExternalOpen p).mech = p.mech ∧
    (seqExternalOpen p).entries = p.entries ∧ (seqExternalOpen p).posture = p.posture ∧
    (seqExternalOpen p).table = p.table ∧ (seqExternalOpen p).hunt = p.hunt ∧
    (seqExternalOpen p).records = p.records ∧ (seqExternalOpen p).links = p.links ∧
    (seqExternalOpen p).store = p.store := by
  unfold seqExternalOpen
  (repeat' split) <;> simp

@[simp] theorem seqExternalClose_frame (p : Part) :
    (seqExternalClose p).started = p.started ∧ (seqExternalClose p).coldInput = p.coldInput ∧
    (seqExternalClose p).clock = p.clock ∧ (seqExternalClose p).intake = p.intake ∧
    (seqExternalClose p).elements = p.elements ∧ (seqExternalClose p).mech = p.mech ∧
    (seqExternalClose p).entries = p.entries ∧ (seqExternalClose p).posture = p.posture ∧
    (seqExternalClose p).table = p.table ∧ (seqExternalClose p).hunt = p.hunt ∧
    (seqExternalClose p).records = p.records ∧ (seqExternalClose p).notices = p.notices ∧
    (seqExternalClose p).links = p.links ∧ (seqExternalClose p).store = p.store := by
  unfold seqExternalClose
  (repeat' split) <;> simp

@[simp] theorem joinPart_frame (k : BlockKind) (p : Part) :
    (joinPart k p).started = p.started ∧ (joinPart k p).coldInput = p.coldInput ∧ (joinPart k p).clock = p.clock ∧
    (joinPart k p).intake = p.intake ∧ (joinPart k p).elements = p.elements ∧ (joinPart k p).mech = p.mech ∧
    (joinPart k p).seq = p.seq ∧ (joinPart k p).posture = p.posture ∧ (joinPart k p).table = p.table ∧
    (joinPart k p).hunt = p.hunt ∧ (joinPart k p).records = p.records ∧ (joinPart k p).links = p.links ∧
    (joinPart k p).store = p.store := by
  unfold joinPart
  simp

@[simp] theorem removePart_frame (k : BlockKind) (p : Part) :
    (removePart k p).started = p.started ∧ (removePart k p).coldInput = p.coldInput ∧
    (removePart k p).clock = p.clock ∧ (removePart k p).intake = p.intake ∧ (removePart k p).elements = p.elements ∧
    (removePart k p).mech = p.mech ∧ (removePart k p).seq = p.seq ∧ (removePart k p).posture = p.posture ∧
    (removePart k p).table = p.table ∧ (removePart k p).hunt = p.hunt ∧ (removePart k p).records = p.records ∧
    (removePart k p).links = p.links ∧ (removePart k p).store = p.store := by
  unfold removePart
  (repeat' split) <;> simp

@[simp] theorem huntTrip_frame (c : TripCall) (p : Part) :
    (huntTrip c p).1.started = p.started ∧ (huntTrip c p).1.coldInput = p.coldInput ∧
    (huntTrip c p).1.clock = p.clock ∧ (huntTrip c p).1.intake = p.intake ∧ (huntTrip c p).1.entries = p.entries ∧
    (huntTrip c p).1.posture = p.posture ∧ (huntTrip c p).1.table = p.table ∧ (huntTrip c p).1.hunt = p.hunt ∧
    (huntTrip c p).1.links = p.links ∧ (huntTrip c p).1.store = p.store := by
  unfold huntTrip
  have h := placeTrip_frame .hunt p
  rcases hx : placeTrip .hunt p with ⟨q, x⟩
  rw [hx] at h
  simp only at h
  (repeat' split) <;> simp_all

@[simp] theorem handBack_frame (named : HandBack) (p : Part) :
    (handBack named p).started = p.started ∧ (handBack named p).coldInput = p.coldInput ∧
    (handBack named p).clock = p.clock ∧ (handBack named p).intake = p.intake ∧ (handBack named p).mech = p.mech ∧
    (handBack named p).entries = p.entries ∧ (handBack named p).posture = p.posture ∧
    (handBack named p).table = p.table ∧ (handBack named p).hunt = p.hunt ∧ (handBack named p).records = p.records ∧
    (handBack named p).links = p.links ∧ (handBack named p).store = p.store := by
  unfold handBack
  simp

@[simp] theorem handBackPendingDone_frame (p : Part) :
    (handBackPendingDone p).started = p.started ∧ (handBackPendingDone p).coldInput = p.coldInput ∧
    (handBackPendingDone p).clock = p.clock ∧ (handBackPendingDone p).intake = p.intake ∧
    (handBackPendingDone p).mech = p.mech ∧ (handBackPendingDone p).entries = p.entries ∧
    (handBackPendingDone p).posture = p.posture ∧ (handBackPendingDone p).table = p.table ∧
    (handBackPendingDone p).records = p.records ∧ (handBackPendingDone p).links = p.links ∧
    (handBackPendingDone p).store = p.store := by
  unfold handBackPendingDone
  (repeat' split) <;> simp

@[simp] theorem writeResult_frame (outcome : HuntOutcome) (reason : HuntReason) (detail : Option HuntDetail) (p : Part) :
    (writeResult outcome reason detail p).started = p.started ∧
    (writeResult outcome reason detail p).coldInput = p.coldInput ∧
    (writeResult outcome reason detail p).clock = p.clock ∧ (writeResult outcome reason detail p).intake = p.intake ∧
    (writeResult outcome reason detail p).elements = p.elements ∧
    (writeResult outcome reason detail p).mech = p.mech ∧ (writeResult outcome reason detail p).seq = p.seq ∧
    (writeResult outcome reason detail p).entries = p.entries ∧
    (writeResult outcome reason detail p).posture = p.posture ∧
    (writeResult outcome reason detail p).table = p.table ∧
    (writeResult outcome reason detail p).records = p.records ∧
    (writeResult outcome reason detail p).notices = p.notices ∧
    (writeResult outcome reason detail p).links = p.links ∧
    (writeResult outcome reason detail p).store = p.store := by
  unfold writeResult
  simp

@[simp] theorem abandonStart_frame (reason : HuntReason) (detail : Option HuntDetail) (p : Part) :
    (abandonStart reason detail p).started = p.started ∧ (abandonStart reason detail p).coldInput = p.coldInput ∧
    (abandonStart reason detail p).clock = p.clock ∧ (abandonStart reason detail p).intake = p.intake ∧
    (abandonStart reason detail p).elements = p.elements ∧ (abandonStart reason detail p).mech = p.mech ∧
    (abandonStart reason detail p).seq = p.seq ∧ (abandonStart reason detail p).posture = p.posture ∧
    (abandonStart reason detail p).table = p.table ∧ (abandonStart reason detail p).records = p.records ∧
    (abandonStart reason detail p).links = p.links ∧ (abandonStart reason detail p).store = p.store := by
  unfold abandonStart
  simp

@[simp] theorem abandonTrip_frame (c : TripCall) (p : Part) :
    (abandonTrip c p).started = p.started ∧ (abandonTrip c p).coldInput = p.coldInput ∧
    (abandonTrip c p).clock = p.clock ∧ (abandonTrip c p).intake = p.intake ∧ (abandonTrip c p).entries = p.entries ∧
    (abandonTrip c p).posture = p.posture ∧ (abandonTrip c p).table = p.table ∧ (abandonTrip c p).links = p.links ∧
    (abandonTrip c p).store = p.store := by
  unfold abandonTrip
  have h := huntTrip_frame c { p with hunt := { p.hunt with handBackPending := true } }
  rcases hx : huntTrip c { p with hunt := { p.hunt with handBackPending := true } } with ⟨q, x⟩
  rw [hx] at h
  simp only at h
  (repeat' split) <;> simp_all

@[simp] theorem abandon_frame (reason : HuntReason) (detail : Option HuntDetail) (c : TripCall) (p : Part) :
    (abandon reason detail c p).started = p.started ∧ (abandon reason detail c p).coldInput = p.coldInput ∧
    (abandon reason detail c p).clock = p.clock ∧ (abandon reason detail c p).intake = p.intake ∧
    (abandon reason detail c p).posture = p.posture ∧ (abandon reason detail c p).table = p.table ∧
    (abandon reason detail c p).links = p.links ∧ (abandon reason detail c p).store = p.store := by
  unfold abandon
  dsimp only
  (repeat' split) <;> simp

@[simp] theorem abandonIfRunning_frame (reason : HuntReason) (detail : Option HuntDetail) (c : TripCall) (p : Part) :
    (abandonIfRunning reason detail c p).started = p.started ∧
    (abandonIfRunning reason detail c p).coldInput = p.coldInput ∧
    (abandonIfRunning reason detail c p).clock = p.clock ∧ (abandonIfRunning reason detail c p).intake = p.intake ∧
    (abandonIfRunning reason detail c p).posture = p.posture ∧ (abandonIfRunning reason detail c p).table = p.table ∧
    (abandonIfRunning reason detail c p).links = p.links ∧ (abandonIfRunning reason detail c p).store = p.store := by
  unfold abandonIfRunning
  (repeat' split) <;> simp

@[simp] theorem huntMechanismPlaced_frame (p : Part) :
    (huntMechanismPlaced p).started = p.started ∧ (huntMechanismPlaced p).coldInput = p.coldInput ∧
    (huntMechanismPlaced p).clock = p.clock ∧ (huntMechanismPlaced p).intake = p.intake ∧
    (huntMechanismPlaced p).posture = p.posture ∧ (huntMechanismPlaced p).table = p.table ∧
    (huntMechanismPlaced p).links = p.links ∧ (huntMechanismPlaced p).store = p.store := by
  unfold huntMechanismPlaced
  (repeat' split) <;> simp

@[simp] theorem placeMechanism_frame (p : Part) :
    (placeMechanism p).started = p.started ∧ (placeMechanism p).coldInput = p.coldInput ∧
    (placeMechanism p).clock = p.clock ∧ (placeMechanism p).intake = p.intake ∧
    (placeMechanism p).posture = p.posture ∧ (placeMechanism p).table = p.table ∧ (placeMechanism p).links = p.links ∧
    (placeMechanism p).store = p.store := by
  unfold placeMechanism
  (repeat' split) <;> simp

@[simp] theorem placeMeasure_frame (p : Part) :
    (placeMeasure p).started = p.started ∧ (placeMeasure p).coldInput = p.coldInput ∧
    (placeMeasure p).clock = p.clock ∧ (placeMeasure p).intake = p.intake ∧ (placeMeasure p).elements = p.elements ∧
    (placeMeasure p).mech = p.mech ∧ (placeMeasure p).posture = p.posture ∧ (placeMeasure p).table = p.table ∧
    (placeMeasure p).hunt = p.hunt ∧ (placeMeasure p).records = p.records ∧ (placeMeasure p).links = p.links ∧
    (placeMeasure p).store = p.store := by
  unfold placeMeasure
  (repeat' split) <;> simp

@[simp] theorem placeHunt_frame (p : Part) :
    (placeHunt p).started = p.started ∧ (placeHunt p).coldInput = p.coldInput ∧ (placeHunt p).clock = p.clock ∧
    (placeHunt p).intake = p.intake ∧ (placeHunt p).elements = p.elements ∧ (placeHunt p).mech = p.mech ∧
    (placeHunt p).posture = p.posture ∧ (placeHunt p).table = p.table ∧ (placeHunt p).hunt = p.hunt ∧
    (placeHunt p).records = p.records ∧ (placeHunt p).links = p.links ∧ (placeHunt p).store = p.store := by
  unfold placeHunt
  (repeat' split) <;> simp

@[simp] theorem issueOrder_frame (k : Nat) (action : SwitchAction) (p : Part) :
    (issueOrder k action p).started = p.started ∧ (issueOrder k action p).coldInput = p.coldInput ∧
    (issueOrder k action p).clock = p.clock ∧ (issueOrder k action p).intake = p.intake ∧
    (issueOrder k action p).posture = p.posture ∧ (issueOrder k action p).table = p.table ∧
    (issueOrder k action p).links = p.links ∧ (issueOrder k action p).store = p.store := by
  unfold issueOrder
  (repeat' split) <;> simp

@[simp] theorem placeTestClose_frame (p : Part) :
    (placeTestClose p).started = p.started ∧ (placeTestClose p).coldInput = p.coldInput ∧
    (placeTestClose p).clock = p.clock ∧ (placeTestClose p).intake = p.intake ∧
    (placeTestClose p).posture = p.posture ∧ (placeTestClose p).table = p.table ∧ (placeTestClose p).links = p.links ∧
    (placeTestClose p).store = p.store := by
  unfold placeTestClose
  have h := placeClose_frame .hunt .huntTest p
  rcases hx : placeClose .hunt .huntTest p with ⟨q, x⟩
  rw [hx] at h
  simp only at h
  (repeat' split) <;> simp_all

@[simp] theorem placeRestoreClose_frame (p : Part) :
    (placeRestoreClose p).started = p.started ∧ (placeRestoreClose p).coldInput = p.coldInput ∧
    (placeRestoreClose p).clock = p.clock ∧ (placeRestoreClose p).intake = p.intake ∧
    (placeRestoreClose p).posture = p.posture ∧ (placeRestoreClose p).table = p.table ∧
    (placeRestoreClose p).links = p.links ∧ (placeRestoreClose p).store = p.store := by
  unfold placeRestoreClose
  have h := placeClose_frame .hunt .huntRestore p
  rcases hx : placeClose .hunt .huntRestore p with ⟨q, x⟩
  rw [hx] at h
  simp only at h
  (repeat' split) <;> simp_all

@[simp] theorem placeDueClose_frame (p : Part) :
    (placeDueClose p).started = p.started ∧ (placeDueClose p).coldInput = p.coldInput ∧
    (placeDueClose p).clock = p.clock ∧ (placeDueClose p).intake = p.intake ∧ (placeDueClose p).posture = p.posture ∧
    (placeDueClose p).table = p.table ∧ (placeDueClose p).links = p.links ∧ (placeDueClose p).store = p.store := by
  unfold placeDueClose
  (repeat' split) <;> simp

@[simp] theorem closeBecomesDue_frame (due : CloseDue) (p : Part) :
    (closeBecomesDue due p).started = p.started ∧ (closeBecomesDue due p).coldInput = p.coldInput ∧
    (closeBecomesDue due p).clock = p.clock ∧ (closeBecomesDue due p).intake = p.intake ∧
    (closeBecomesDue due p).posture = p.posture ∧ (closeBecomesDue due p).table = p.table ∧
    (closeBecomesDue due p).links = p.links ∧ (closeBecomesDue due p).store = p.store := by
  unfold closeBecomesDue
  dsimp only
  (repeat' split) <;> simp

@[simp] theorem huntConditionsChanged_frame (p : Part) :
    (huntConditionsChanged p).started = p.started ∧ (huntConditionsChanged p).coldInput = p.coldInput ∧
    (huntConditionsChanged p).clock = p.clock ∧ (huntConditionsChanged p).intake = p.intake ∧
    (huntConditionsChanged p).posture = p.posture ∧ (huntConditionsChanged p).table = p.table ∧
    (huntConditionsChanged p).links = p.links ∧ (huntConditionsChanged p).store = p.store := by
  unfold huntConditionsChanged
  (repeat' split) <;> simp

@[simp] theorem deriveOrder_frame (p : Part) :
    (deriveOrder p).started = p.started ∧ (deriveOrder p).coldInput = p.coldInput ∧ (deriveOrder p).clock = p.clock ∧
    (deriveOrder p).intake = p.intake ∧ (deriveOrder p).posture = p.posture ∧ (deriveOrder p).table = p.table ∧
    (deriveOrder p).links = p.links ∧ (deriveOrder p).store = p.store := by
  unfold deriveOrder
  (repeat' split) <;> simp

@[simp] theorem conclude_frame (named : HandBack) (p : Part) :
    (conclude named p).started = p.started ∧ (conclude named p).coldInput = p.coldInput ∧
    (conclude named p).clock = p.clock ∧ (conclude named p).intake = p.intake ∧ (conclude named p).mech = p.mech ∧
    (conclude named p).posture = p.posture ∧ (conclude named p).table = p.table ∧
    (conclude named p).records = p.records ∧ (conclude named p).links = p.links ∧
    (conclude named p).store = p.store := by
  unfold conclude
  (repeat' split) <;> simp

@[simp] theorem restoreStep_frame (p : Part) :
    (restoreStep p).started = p.started ∧ (restoreStep p).coldInput = p.coldInput ∧ (restoreStep p).clock = p.clock ∧
    (restoreStep p).intake = p.intake ∧ (restoreStep p).posture = p.posture ∧ (restoreStep p).table = p.table ∧
    (restoreStep p).links = p.links ∧ (restoreStep p).store = p.store := by
  unfold restoreStep
  (repeat' split) <;> simp

@[simp] theorem enterRestoration_frame (reason : HuntReason) (p : Part) :
    (enterRestoration reason p).started = p.started ∧ (enterRestoration reason p).coldInput = p.coldInput ∧
    (enterRestoration reason p).clock = p.clock ∧ (enterRestoration reason p).intake = p.intake ∧
    (enterRestoration reason p).posture = p.posture ∧ (enterRestoration reason p).table = p.table ∧
    (enterRestoration reason p).links = p.links ∧ (enterRestoration reason p).store = p.store := by
  unfold enterRestoration
  simp

@[simp] theorem plan_frame (p : Part) :
    (plan p).started = p.started ∧ (plan p).coldInput = p.coldInput ∧ (plan p).clock = p.clock ∧
    (plan p).intake = p.intake ∧ (plan p).posture = p.posture ∧ (plan p).table = p.table ∧ (plan p).links = p.links ∧
    (plan p).store = p.store := by
  unfold plan
  (repeat' split) <;> simp

@[simp] theorem huntInit_frame (starter : StartedBy) (p : Part) :
    (huntInit starter p).started = p.started ∧ (huntInit starter p).coldInput = p.coldInput ∧
    (huntInit starter p).clock = p.clock ∧ (huntInit starter p).intake = p.intake ∧
    (huntInit starter p).elements = p.elements ∧ (huntInit starter p).mech = p.mech ∧
    (huntInit starter p).seq = p.seq ∧ (huntInit starter p).entries = p.entries ∧
    (huntInit starter p).posture = p.posture ∧ (huntInit starter p).table = p.table ∧
    (huntInit starter p).records = p.records ∧ (huntInit starter p).notices = p.notices ∧
    (huntInit starter p).links = p.links ∧ (huntInit starter p).store = p.store := by
  unfold huntInit
  simp

@[simp] theorem seqHuntStarted_frame (p : Part) :
    (seqHuntStarted p).started = p.started ∧ (seqHuntStarted p).coldInput = p.coldInput ∧
    (seqHuntStarted p).clock = p.clock ∧ (seqHuntStarted p).intake = p.intake ∧
    (seqHuntStarted p).elements = p.elements ∧ (seqHuntStarted p).mech = p.mech ∧
    (seqHuntStarted p).entries = p.entries ∧ (seqHuntStarted p).posture = p.posture ∧
    (seqHuntStarted p).table = p.table ∧ (seqHuntStarted p).hunt = p.hunt ∧ (seqHuntStarted p).records = p.records ∧
    (seqHuntStarted p).notices = p.notices ∧ (seqHuntStarted p).links = p.links ∧
    (seqHuntStarted p).store = p.store := by
  unfold seqHuntStarted
  simp

@[simp] theorem beginHunt_frame (starter : StartedBy) (p : Part) :
    (beginHunt starter p).started = p.started ∧ (beginHunt starter p).coldInput = p.coldInput ∧
    (beginHunt starter p).clock = p.clock ∧ (beginHunt starter p).intake = p.intake ∧
    (beginHunt starter p).posture = p.posture ∧ (beginHunt starter p).table = p.table ∧
    (beginHunt starter p).links = p.links ∧ (beginHunt starter p).store = p.store := by
  unfold beginHunt
  simp

@[simp] theorem offerHunt_frame (p : Part) :
    (offerHunt p).started = p.started ∧ (offerHunt p).coldInput = p.coldInput ∧ (offerHunt p).clock = p.clock ∧
    (offerHunt p).intake = p.intake ∧ (offerHunt p).posture = p.posture ∧ (offerHunt p).table = p.table ∧
    (offerHunt p).links = p.links ∧ (offerHunt p).store = p.store := by
  unfold offerHunt
  (repeat' split) <;> simp

@[simp] theorem huntOpened_frame (p : Part) :
    (huntOpened p).started = p.started ∧ (huntOpened p).coldInput = p.coldInput ∧ (huntOpened p).clock = p.clock ∧
    (huntOpened p).intake = p.intake ∧ (huntOpened p).posture = p.posture ∧ (huntOpened p).table = p.table ∧
    (huntOpened p).links = p.links ∧ (huntOpened p).store = p.store := by
  unfold huntOpened
  (repeat' split) <;> simp

@[simp] theorem testResult_frame (r : TestResult) (c : TripCall) (p : Part) :
    (testResult r c p).started = p.started ∧ (testResult r c p).coldInput = p.coldInput ∧
    (testResult r c p).clock = p.clock ∧ (testResult r c p).intake = p.intake ∧
    (testResult r c p).posture = p.posture ∧ (testResult r c p).table = p.table ∧ (testResult r c p).links = p.links ∧
    (testResult r c p).store = p.store := by
  unfold testResult
  have h := huntTrip_frame c { p with hunt := applyResult (takenResult p.hunt.doubtfulSeen r) p.hunt }
  rcases hx : huntTrip c { p with hunt := applyResult (takenResult p.hunt.doubtfulSeen r) p.hunt } with ⟨q, x⟩
  rw [hx] at h
  simp only at h
  (repeat' split) <;> simp_all

@[simp] theorem windowEnded_frame (sum : Nat) (p : Part) :
    (windowEnded sum p).started = p.started ∧ (windowEnded sum p).coldInput = p.coldInput ∧
    (windowEnded sum p).clock = p.clock ∧ (windowEnded sum p).intake = p.intake ∧
    (windowEnded sum p).posture = p.posture ∧ (windowEnded sum p).table = p.table ∧
    (windowEnded sum p).links = p.links ∧ (windowEnded sum p).store = p.store := by
  unfold windowEnded
  simp

@[simp] theorem huntStep_frame (residual : Channel) (p : Part) :
    (huntStep residual p).started = p.started ∧ (huntStep residual p).coldInput = p.coldInput ∧
    (huntStep residual p).clock = p.clock ∧ (huntStep residual p).intake = p.intake ∧
    (huntStep residual p).posture = p.posture ∧ (huntStep residual p).table = p.table ∧
    (huntStep residual p).links = p.links ∧ (huntStep residual p).store = p.store := by
  unfold huntStep
  dsimp only
  (repeat' split) <;> simp

@[simp] theorem huntDecision_frame (d : Decision) (p : Part) :
    (huntDecision d p).started = p.started ∧ (huntDecision d p).coldInput = p.coldInput ∧
    (huntDecision d p).clock = p.clock ∧ (huntDecision d p).intake = p.intake ∧
    (huntDecision d p).posture = p.posture ∧ (huntDecision d p).table = p.table ∧ (huntDecision d p).links = p.links ∧
    (huntDecision d p).store = p.store := by
  unfold huntDecision
  (repeat' split) <;> simp

@[simp] theorem huntCloseDone_frame (p : Part) :
    (huntCloseDone p).started = p.started ∧ (huntCloseDone p).coldInput = p.coldInput ∧
    (huntCloseDone p).clock = p.clock ∧ (huntCloseDone p).intake = p.intake ∧ (huntCloseDone p).mech = p.mech ∧
    (huntCloseDone p).posture = p.posture ∧ (huntCloseDone p).table = p.table ∧
    (huntCloseDone p).records = p.records ∧ (huntCloseDone p).links = p.links ∧
    (huntCloseDone p).store = p.store := by
  unfold huntCloseDone
  (repeat' split) <;> simp

@[simp] theorem huntReleased_frame (p : Part) :
    (huntReleased p).started = p.started ∧ (huntReleased p).coldInput = p.coldInput ∧
    (huntReleased p).clock = p.clock ∧ (huntReleased p).intake = p.intake ∧ (huntReleased p).posture = p.posture ∧
    (huntReleased p).table = p.table ∧ (huntReleased p).links = p.links ∧ (huntReleased p).store = p.store := by
  unfold huntReleased
  simp

@[simp] theorem weighDisturbance_frame (before : SectionTable) (p : Part) :
    (weighDisturbance before p).started = p.started ∧ (weighDisturbance before p).coldInput = p.coldInput ∧
    (weighDisturbance before p).clock = p.clock ∧ (weighDisturbance before p).intake = p.intake ∧
    (weighDisturbance before p).posture = p.posture ∧ (weighDisturbance before p).table = p.table ∧
    (weighDisturbance before p).links = p.links ∧ (weighDisturbance before p).store = p.store := by
  unfold weighDisturbance
  (repeat' split) <;> simp

@[simp] theorem endSwitchOrder_frame (p : Part) :
    (endSwitchOrder p).started = p.started ∧ (endSwitchOrder p).coldInput = p.coldInput ∧
    (endSwitchOrder p).clock = p.clock ∧ (endSwitchOrder p).intake = p.intake ∧
    (endSwitchOrder p).elements = p.elements ∧ (endSwitchOrder p).mech = p.mech ∧ (endSwitchOrder p).seq = p.seq ∧
    (endSwitchOrder p).entries = p.entries ∧ (endSwitchOrder p).posture = p.posture ∧
    (endSwitchOrder p).table = p.table ∧ (endSwitchOrder p).records = p.records ∧
    (endSwitchOrder p).notices = p.notices ∧ (endSwitchOrder p).links = p.links ∧
    (endSwitchOrder p).store = p.store := by
  unfold endSwitchOrder
  simp

@[simp] theorem orderAnswered_frame (o : SwitchOrder) (reported : Believed) (p : Part) :
    (orderAnswered o reported p).started = p.started ∧ (orderAnswered o reported p).coldInput = p.coldInput ∧
    (orderAnswered o reported p).clock = p.clock ∧ (orderAnswered o reported p).intake = p.intake ∧
    (orderAnswered o reported p).posture = p.posture ∧ (orderAnswered o reported p).table = p.table ∧
    (orderAnswered o reported p).links = p.links ∧ (orderAnswered o reported p).store = p.store := by
  unfold orderAnswered
  dsimp only
  (repeat' split) <;> simp

@[simp] theorem orderTimerEnded_frame (p : Part) :
    (orderTimerEnded p).started = p.started ∧ (orderTimerEnded p).coldInput = p.coldInput ∧
    (orderTimerEnded p).clock = p.clock ∧ (orderTimerEnded p).intake = p.intake ∧
    (orderTimerEnded p).posture = p.posture ∧ (orderTimerEnded p).links = p.links ∧
    (orderTimerEnded p).store = p.store := by
  unfold orderTimerEnded
  (repeat' split) <;> simp

@[simp] theorem huntCloseWaitEnded_frame (p : Part) :
    (huntCloseWaitEnded p).started = p.started ∧ (huntCloseWaitEnded p).coldInput = p.coldInput ∧
    (huntCloseWaitEnded p).clock = p.clock ∧ (huntCloseWaitEnded p).intake = p.intake ∧
    (huntCloseWaitEnded p).posture = p.posture ∧ (huntCloseWaitEnded p).table = p.table ∧
    (huntCloseWaitEnded p).links = p.links ∧ (huntCloseWaitEnded p).store = p.store := by
  unfold huntCloseWaitEnded
  simp

@[simp] theorem lockoutOnCause_frame (p : Part) :
    (lockoutOnCause p).started = p.started ∧ (lockoutOnCause p).coldInput = p.coldInput ∧
    (lockoutOnCause p).clock = p.clock ∧ (lockoutOnCause p).intake = p.intake ∧
    (lockoutOnCause p).posture = p.posture ∧ (lockoutOnCause p).table = p.table ∧ (lockoutOnCause p).links = p.links ∧
    (lockoutOnCause p).store = p.store := by
  unfold lockoutOnCause
  (repeat' split) <;> simp

@[simp] theorem enterDeadTime_frame (k : Nat) (p : Part) :
    (enterDeadTime k p).started = p.started ∧ (enterDeadTime k p).coldInput = p.coldInput ∧
    (enterDeadTime k p).clock = p.clock ∧ (enterDeadTime k p).intake = p.intake ∧
    (enterDeadTime k p).elements = p.elements ∧ (enterDeadTime k p).mech = p.mech ∧
    (enterDeadTime k p).entries = p.entries ∧ (enterDeadTime k p).posture = p.posture ∧
    (enterDeadTime k p).table = p.table ∧ (enterDeadTime k p).hunt = p.hunt ∧
    (enterDeadTime k p).records = p.records ∧ (enterDeadTime k p).notices = p.notices ∧
    (enterDeadTime k p).links = p.links ∧ (enterDeadTime k p).store = p.store := by
  unfold enterDeadTime
  simp

@[simp] theorem chooseShot_frame (p : Part) :
    (chooseShot p).started = p.started ∧ (chooseShot p).coldInput = p.coldInput ∧ (chooseShot p).clock = p.clock ∧
    (chooseShot p).intake = p.intake ∧ (chooseShot p).posture = p.posture ∧ (chooseShot p).table = p.table ∧
    (chooseShot p).links = p.links ∧ (chooseShot p).store = p.store := by
  unfold chooseShot
  (repeat' split) <;> simp

@[simp] theorem seqOpened_frame (p : Part) :
    (seqOpened p).started = p.started ∧ (seqOpened p).coldInput = p.coldInput ∧ (seqOpened p).clock = p.clock ∧
    (seqOpened p).intake = p.intake ∧ (seqOpened p).posture = p.posture ∧ (seqOpened p).table = p.table ∧
    (seqOpened p).links = p.links ∧ (seqOpened p).store = p.store := by
  unfold seqOpened
  (repeat' split) <;> simp

@[simp] theorem noteTrip_frame (last : LastTrip) (forced : Option Forced) (p : Part) :
    (noteTrip last forced p).started = p.started ∧ (noteTrip last forced p).coldInput = p.coldInput ∧
    (noteTrip last forced p).clock = p.clock ∧ (noteTrip last forced p).intake = p.intake ∧
    (noteTrip last forced p).elements = p.elements ∧ (noteTrip last forced p).mech = p.mech ∧
    (noteTrip last forced p).entries = p.entries ∧ (noteTrip last forced p).posture = p.posture ∧
    (noteTrip last forced p).table = p.table ∧ (noteTrip last forced p).hunt = p.hunt ∧
    (noteTrip last forced p).records = p.records ∧ (noteTrip last forced p).notices = p.notices ∧
    (noteTrip last forced p).links = p.links ∧ (noteTrip last forced p).store = p.store := by
  unfold noteTrip
  simp

@[simp] theorem enterTripping_frame (p : Part) :
    (enterTripping p).started = p.started ∧ (enterTripping p).coldInput = p.coldInput ∧
    (enterTripping p).clock = p.clock ∧ (enterTripping p).intake = p.intake ∧
    (enterTripping p).elements = p.elements ∧ (enterTripping p).mech = p.mech ∧
    (enterTripping p).entries = p.entries ∧ (enterTripping p).posture = p.posture ∧
    (enterTripping p).table = p.table ∧ (enterTripping p).hunt = p.hunt ∧ (enterTripping p).records = p.records ∧
    (enterTripping p).notices = p.notices ∧ (enterTripping p).links = p.links ∧
    (enterTripping p).store = p.store := by
  unfold enterTripping
  (repeat' split) <;> simp

@[simp] theorem tripAccepted_frame (last : LastTrip) (forced : Option Forced) (p : Part) :
    (tripAccepted last forced p).started = p.started ∧ (tripAccepted last forced p).coldInput = p.coldInput ∧
    (tripAccepted last forced p).clock = p.clock ∧ (tripAccepted last forced p).intake = p.intake ∧
    (tripAccepted last forced p).mech = p.mech ∧ (tripAccepted last forced p).entries = p.entries ∧
    (tripAccepted last forced p).posture = p.posture ∧ (tripAccepted last forced p).table = p.table ∧
    (tripAccepted last forced p).hunt = p.hunt ∧ (tripAccepted last forced p).links = p.links ∧
    (tripAccepted last forced p).store = p.store := by
  unfold tripAccepted
  simp

@[simp] theorem seqTrip_frame (last : LastTrip) (forced : Option Forced) (p : Part) :
    (seqTrip last forced p).1.started = p.started ∧ (seqTrip last forced p).1.coldInput = p.coldInput ∧
    (seqTrip last forced p).1.clock = p.clock ∧ (seqTrip last forced p).1.intake = p.intake ∧
    (seqTrip last forced p).1.posture = p.posture ∧ (seqTrip last forced p).1.table = p.table ∧
    (seqTrip last forced p).1.links = p.links ∧ (seqTrip last forced p).1.store = p.store := by
  unfold seqTrip
  have h := placeTrip_frame .sequencer p
  rcases hx : placeTrip .sequencer p with ⟨q, x⟩
  rw [hx] at h
  simp only at h
  (repeat' split) <;> simp_all

@[simp] theorem seqDecision_frame (d : Decision) (p : Part) :
    (seqDecision d p).started = p.started ∧ (seqDecision d p).coldInput = p.coldInput ∧
    (seqDecision d p).clock = p.clock ∧ (seqDecision d p).intake = p.intake ∧ (seqDecision d p).posture = p.posture ∧
    (seqDecision d p).table = p.table ∧ (seqDecision d p).links = p.links ∧ (seqDecision d p).store = p.store := by
  unfold seqDecision
  (repeat' split) <;> simp

@[simp] theorem forceLockout_frame (f : Forced) (p : Part) :
    (forceLockout f p).started = p.started ∧ (forceLockout f p).coldInput = p.coldInput ∧
    (forceLockout f p).clock = p.clock ∧ (forceLockout f p).intake = p.intake ∧
    (forceLockout f p).elements = p.elements ∧ (forceLockout f p).mech = p.mech ∧
    (forceLockout f p).entries = p.entries ∧ (forceLockout f p).posture = p.posture ∧
    (forceLockout f p).table = p.table ∧ (forceLockout f p).hunt = p.hunt ∧ (forceLockout f p).records = p.records ∧
    (forceLockout f p).notices = p.notices ∧ (forceLockout f p).links = p.links ∧
    (forceLockout f p).store = p.store := by
  unfold forceLockout
  (repeat' split) <;> simp

@[simp] theorem seqMeasureLoss_frame (p : Part) :
    (seqMeasureLoss p).started = p.started ∧ (seqMeasureLoss p).coldInput = p.coldInput ∧
    (seqMeasureLoss p).clock = p.clock ∧ (seqMeasureLoss p).intake = p.intake ∧
    (seqMeasureLoss p).posture = p.posture ∧ (seqMeasureLoss p).table = p.table ∧ (seqMeasureLoss p).links = p.links ∧
    (seqMeasureLoss p).store = p.store := by
  unfold seqMeasureLoss
  (repeat' split) <;> simp

@[simp] theorem seqTripRequest_frame (m : Master) (p : Part) :
    (seqTripRequest m p).1.started = p.started ∧ (seqTripRequest m p).1.coldInput = p.coldInput ∧
    (seqTripRequest m p).1.clock = p.clock ∧ (seqTripRequest m p).1.intake = p.intake ∧
    (seqTripRequest m p).1.posture = p.posture ∧ (seqTripRequest m p).1.table = p.table ∧
    (seqTripRequest m p).1.links = p.links ∧ (seqTripRequest m p).1.store = p.store := by
  unfold seqTripRequest
  (repeat' split) <;> simp

@[simp] theorem huntLevelChanged_frame (p : Part) :
    (huntLevelChanged p).started = p.started ∧ (huntLevelChanged p).coldInput = p.coldInput ∧
    (huntLevelChanged p).clock = p.clock ∧ (huntLevelChanged p).intake = p.intake ∧
    (huntLevelChanged p).posture = p.posture ∧ (huntLevelChanged p).table = p.table ∧
    (huntLevelChanged p).links = p.links ∧ (huntLevelChanged p).store = p.store := by
  unfold huntLevelChanged
  (repeat' split) <;> simp

@[simp] theorem announceLevel_frame (p : Part) :
    (announceLevel p).started = p.started ∧ (announceLevel p).coldInput = p.coldInput ∧
    (announceLevel p).clock = p.clock ∧ (announceLevel p).intake = p.intake ∧ (announceLevel p).posture = p.posture ∧
    (announceLevel p).table = p.table ∧ (announceLevel p).links = p.links ∧ (announceLevel p).store = p.store := by
  unfold announceLevel
  simp

@[simp] theorem announceSettings_frame (p : Part) :
    (announceSettings p).started = p.started ∧ (announceSettings p).coldInput = p.coldInput ∧
    (announceSettings p).clock = p.clock ∧ (announceSettings p).intake = p.intake ∧
    (announceSettings p).entries = p.entries ∧ (announceSettings p).posture = p.posture ∧
    (announceSettings p).table = p.table ∧ (announceSettings p).hunt = p.hunt ∧
    (announceSettings p).records = p.records ∧ (announceSettings p).links = p.links ∧
    (announceSettings p).store = p.store := by
  unfold announceSettings
  simp

@[simp] theorem announceMoves_frame (levelMoved settingsMoved : Bool) (p : Part) :
    (announceMoves levelMoved settingsMoved p).started = p.started ∧
    (announceMoves levelMoved settingsMoved p).coldInput = p.coldInput ∧
    (announceMoves levelMoved settingsMoved p).clock = p.clock ∧
    (announceMoves levelMoved settingsMoved p).intake = p.intake ∧
    (announceMoves levelMoved settingsMoved p).posture = p.posture ∧
    (announceMoves levelMoved settingsMoved p).table = p.table ∧
    (announceMoves levelMoved settingsMoved p).links = p.links ∧
    (announceMoves levelMoved settingsMoved p).store = p.store := by
  unfold announceMoves
  dsimp only
  (repeat' split) <;> simp

@[simp] theorem recompute_frame (p : Part) :
    (recompute p).started = p.started ∧ (recompute p).coldInput = p.coldInput ∧ (recompute p).clock = p.clock ∧
    (recompute p).intake = p.intake ∧ (recompute p).table = p.table ∧ (recompute p).links = p.links ∧
    (recompute p).store = p.store := by
  unfold recompute
  simp

@[simp] theorem controlHeard_frame (p : Part) :
    (controlHeard p).started = p.started ∧ (controlHeard p).coldInput = p.coldInput ∧
    (controlHeard p).clock = p.clock ∧ (controlHeard p).intake = p.intake ∧ (controlHeard p).table = p.table ∧
    (controlHeard p).links = p.links ∧ (controlHeard p).store = p.store := by
  unfold controlHeard
  dsimp only
  (repeat' split) <;> simp

@[simp] theorem silenceEnded_frame (p : Part) :
    (silenceEnded p).started = p.started ∧ (silenceEnded p).coldInput = p.coldInput ∧
    (silenceEnded p).clock = p.clock ∧ (silenceEnded p).intake = p.intake ∧ (silenceEnded p).table = p.table ∧
    (silenceEnded p).links = p.links ∧ (silenceEnded p).store = p.store := by
  unfold silenceEnded
  simp

@[simp] theorem declarationEnded_frame (p : Part) :
    (declarationEnded p).started = p.started ∧ (declarationEnded p).coldInput = p.coldInput ∧
    (declarationEnded p).clock = p.clock ∧ (declarationEnded p).intake = p.intake ∧
    (declarationEnded p).table = p.table ∧ (declarationEnded p).links = p.links ∧
    (declarationEnded p).store = p.store := by
  unfold declarationEnded
  simp

@[simp] theorem tellHotLine_frame (present : Bool) (p : Part) :
    (tellHotLine present p).started = p.started ∧ (tellHotLine present p).coldInput = p.coldInput ∧
    (tellHotLine present p).clock = p.clock ∧ (tellHotLine present p).intake = p.intake ∧
    (tellHotLine present p).table = p.table ∧ (tellHotLine present p).links = p.links ∧
    (tellHotLine present p).store = p.store := by
  unfold tellHotLine
  simp

@[simp] theorem writeGroup_frame (g : GroupId) (number v : Nat) (p : Part) :
    (writeGroup g number v p).1.started = p.started ∧ (writeGroup g number v p).1.coldInput = p.coldInput ∧
    (writeGroup g number v p).1.clock = p.clock ∧ (writeGroup g number v p).1.intake = p.intake ∧
    (writeGroup g number v p).1.table = p.table ∧ (writeGroup g number v p).1.links = p.links ∧
    (writeGroup g number v p).1.store = p.store := by
  unfold writeGroup
  (repeat' split) <;> simp

@[simp] theorem writePosture_frame (number v : Nat) (p : Part) :
    (writePosture number v p).1.started = p.started ∧ (writePosture number v p).1.coldInput = p.coldInput ∧
    (writePosture number v p).1.clock = p.clock ∧ (writePosture number v p).1.intake = p.intake ∧
    (writePosture number v p).1.elements = p.elements ∧ (writePosture number v p).1.mech = p.mech ∧
    (writePosture number v p).1.seq = p.seq ∧ (writePosture number v p).1.entries = p.entries ∧
    (writePosture number v p).1.table = p.table ∧ (writePosture number v p).1.hunt = p.hunt ∧
    (writePosture number v p).1.records = p.records ∧ (writePosture number v p).1.links = p.links ∧
    (writePosture number v p).1.store = p.store := by
  unfold writePosture
  (repeat' split) <;> simp

@[simp] theorem askWriteSetting_frame (target field : Byte) (value : Long) (p : Part) :
    (askWriteSetting target field value p).1.started = p.started ∧
    (askWriteSetting target field value p).1.coldInput = p.coldInput ∧
    (askWriteSetting target field value p).1.clock = p.clock ∧
    (askWriteSetting target field value p).1.intake = p.intake ∧
    (askWriteSetting target field value p).1.table = p.table ∧
    (askWriteSetting target field value p).1.links = p.links ∧
    (askWriteSetting target field value p).1.store = p.store := by
  unfold askWriteSetting
  (repeat' split) <;> simp

@[simp] theorem confirmed_frame (k : LinkId) (g : GroupId) (s : Settings) (p : Part) :
    (confirmed k g s p).1.started = p.started ∧ (confirmed k g s p).1.coldInput = p.coldInput ∧
    (confirmed k g s p).1.clock = p.clock ∧ (confirmed k g s p).1.intake = p.intake ∧
    (confirmed k g s p).1.table = p.table ∧ (confirmed k g s p).1.links = p.links := by
  unfold confirmed
  simp

@[simp] theorem confirmGroup_frame (k : LinkId) (g : GroupId) (p : Part) :
    (confirmGroup k g p).1.started = p.started ∧ (confirmGroup k g p).1.coldInput = p.coldInput ∧
    (confirmGroup k g p).1.clock = p.clock ∧ (confirmGroup k g p).1.intake = p.intake ∧
    (confirmGroup k g p).1.table = p.table ∧ (confirmGroup k g p).1.links = p.links := by
  unfold confirmGroup
  (repeat' split) <;> simp

@[simp] theorem askConfirmGroup_frame (k : LinkId) (group : Byte) (p : Part) :
    (askConfirmGroup k group p).1.started = p.started ∧ (askConfirmGroup k group p).1.coldInput = p.coldInput ∧
    (askConfirmGroup k group p).1.clock = p.clock ∧ (askConfirmGroup k group p).1.intake = p.intake ∧
    (askConfirmGroup k group p).1.table = p.table ∧ (askConfirmGroup k group p).1.links = p.links := by
  unfold askConfirmGroup
  (repeat' split) <;> simp

@[simp] theorem askSetSeason_frame (k : LinkId) (season : Byte) (p : Part) :
    (askSetSeason k season p).1.started = p.started ∧ (askSetSeason k season p).1.coldInput = p.coldInput ∧
    (askSetSeason k season p).1.clock = p.clock ∧ (askSetSeason k season p).1.intake = p.intake ∧
    (askSetSeason k season p).1.table = p.table ∧ (askSetSeason k season p).1.links = p.links := by
  unfold askSetSeason
  (repeat' split) <;> simp

@[simp] theorem declare_frame (l : Level) (hours : Nat) (p : Part) :
    (declare l hours p).1.started = p.started ∧ (declare l hours p).1.coldInput = p.coldInput ∧
    (declare l hours p).1.clock = p.clock ∧ (declare l hours p).1.intake = p.intake ∧
    (declare l hours p).1.table = p.table ∧ (declare l hours p).1.links = p.links ∧
    (declare l hours p).1.store = p.store := by
  unfold declare
  simp

@[simp] theorem askDeclare_frame (level hours : Byte) (p : Part) :
    (askDeclare level hours p).1.started = p.started ∧ (askDeclare level hours p).1.coldInput = p.coldInput ∧
    (askDeclare level hours p).1.clock = p.clock ∧ (askDeclare level hours p).1.intake = p.intake ∧
    (askDeclare level hours p).1.table = p.table ∧ (askDeclare level hours p).1.links = p.links ∧
    (askDeclare level hours p).1.store = p.store := by
  unfold askDeclare
  (repeat' split) <;> simp

@[simp] theorem askRaiseLocal_frame (level : Byte) (p : Part) :
    (askRaiseLocal level p).1.started = p.started ∧ (askRaiseLocal level p).1.coldInput = p.coldInput ∧
    (askRaiseLocal level p).1.clock = p.clock ∧ (askRaiseLocal level p).1.intake = p.intake ∧
    (askRaiseLocal level p).1.table = p.table ∧ (askRaiseLocal level p).1.links = p.links ∧
    (askRaiseLocal level p).1.store = p.store := by
  unfold askRaiseLocal
  (repeat' split) <;> simp

@[simp] theorem askClearLocal_frame (p : Part) :
    (askClearLocal p).1.started = p.started ∧ (askClearLocal p).1.coldInput = p.coldInput ∧
    (askClearLocal p).1.clock = p.clock ∧ (askClearLocal p).1.intake = p.intake ∧
    (askClearLocal p).1.table = p.table ∧ (askClearLocal p).1.links = p.links ∧
    (askClearLocal p).1.store = p.store := by
  unfold askClearLocal
  (repeat' split) <;> simp

@[simp] theorem writeSlot_frame (n : Option SlotId) (x : Option SlotEntry) (k : Option LinkId) (p : Part) :
    (writeSlot n x k p).started = p.started ∧ (writeSlot n x k p).coldInput = p.coldInput ∧
    (writeSlot n x k p).clock = p.clock ∧ (writeSlot n x k p).intake = p.intake ∧
    (writeSlot n x k p).elements = p.elements ∧ (writeSlot n x k p).mech = p.mech ∧ (writeSlot n x k p).seq = p.seq ∧
    (writeSlot n x k p).entries = p.entries ∧ (writeSlot n x k p).posture = p.posture ∧
    (writeSlot n x k p).table = p.table ∧ (writeSlot n x k p).hunt = p.hunt ∧
    (writeSlot n x k p).records = p.records ∧ (writeSlot n x k p).notices = p.notices ∧
    (writeSlot n x k p).links = p.links := by
  unfold writeSlot
  (repeat' split) <;> simp

@[simp] theorem releasedTaken_frame (by' : Option Placer) (p : Part) :
    (releasedTaken by' p).started = p.started ∧ (releasedTaken by' p).coldInput = p.coldInput ∧
    (releasedTaken by' p).clock = p.clock ∧ (releasedTaken by' p).intake = p.intake ∧
    (releasedTaken by' p).posture = p.posture ∧ (releasedTaken by' p).table = p.table ∧
    (releasedTaken by' p).links = p.links ∧ (releasedTaken by' p).store = p.store := by
  unfold releasedTaken
  (repeat' split) <;> simp

@[simp] theorem hotLineRelease_frame (p : Part) :
    (hotLineRelease p).started = p.started ∧ (hotLineRelease p).coldInput = p.coldInput ∧
    (hotLineRelease p).clock = p.clock ∧ (hotLineRelease p).intake = p.intake ∧
    (hotLineRelease p).posture = p.posture ∧ (hotLineRelease p).table = p.table ∧ (hotLineRelease p).links = p.links ∧
    (hotLineRelease p).store = p.store := by
  unfold hotLineRelease
  (repeat' split) <;> simp

@[simp] theorem huntHotLine_frame (p : Part) :
    (huntHotLine p).started = p.started ∧ (huntHotLine p).coldInput = p.coldInput ∧ (huntHotLine p).clock = p.clock ∧
    (huntHotLine p).intake = p.intake ∧ (huntHotLine p).posture = p.posture ∧ (huntHotLine p).table = p.table ∧
    (huntHotLine p).links = p.links ∧ (huntHotLine p).store = p.store := by
  unfold huntHotLine
  simp

@[simp] theorem handPlacement_frame (kind : BlockKind) (p : Part) :
    (handPlacement kind p).started = p.started ∧ (handPlacement kind p).coldInput = p.coldInput ∧
    (handPlacement kind p).clock = p.clock ∧ (handPlacement kind p).intake = p.intake ∧
    (handPlacement kind p).posture = p.posture ∧ (handPlacement kind p).table = p.table ∧
    (handPlacement kind p).links = p.links ∧ (handPlacement kind p).store = p.store := by
  unfold handPlacement
  (repeat' split) <;> simp

@[simp] theorem joinEntry_frame (e : BlockEntry) (p : Part) :
    (joinEntry e p).started = p.started ∧ (joinEntry e p).coldInput = p.coldInput ∧ (joinEntry e p).clock = p.clock ∧
    (joinEntry e p).intake = p.intake ∧ (joinEntry e p).table = p.table ∧ (joinEntry e p).links = p.links ∧
    (joinEntry e p).store = p.store := by
  unfold joinEntry
  (repeat' split) <;> simp

@[simp] theorem joinAndStore_frame (k : LinkId) (e : BlockEntry) (p : Part) :
    (joinAndStore k e p).started = p.started ∧ (joinAndStore k e p).coldInput = p.coldInput ∧
    (joinAndStore k e p).clock = p.clock ∧ (joinAndStore k e p).intake = p.intake ∧
    (joinAndStore k e p).table = p.table ∧ (joinAndStore k e p).links = p.links := by
  unfold joinAndStore
  simp

@[simp] theorem placeNew_frame (k : LinkId) (m : Master) (kind : BlockKind) (reason : Byte) (expiry : Option Nat) (p : Part) :
    (placeNew k m kind reason expiry p).started = p.started ∧
    (placeNew k m kind reason expiry p).coldInput = p.coldInput ∧
    (placeNew k m kind reason expiry p).clock = p.clock ∧ (placeNew k m kind reason expiry p).intake = p.intake ∧
    (placeNew k m kind reason expiry p).table = p.table ∧ (placeNew k m kind reason expiry p).links = p.links := by
  unfold placeNew
  simp

@[simp] theorem refreshWrite_frame (k : LinkId) (e : BlockEntry) (expiry : Option Nat) (taken : Option SlotId) (p : Part) :
    (refreshWrite k e expiry taken p).started = p.started ∧
    (refreshWrite k e expiry taken p).coldInput = p.coldInput ∧ (refreshWrite k e expiry taken p).clock = p.clock ∧
    (refreshWrite k e expiry taken p).intake = p.intake ∧ (refreshWrite k e expiry taken p).elements = p.elements ∧
    (refreshWrite k e expiry taken p).mech = p.mech ∧ (refreshWrite k e expiry taken p).seq = p.seq ∧
    (refreshWrite k e expiry taken p).entries = p.entries ∧ (refreshWrite k e expiry taken p).posture = p.posture ∧
    (refreshWrite k e expiry taken p).table = p.table ∧ (refreshWrite k e expiry taken p).hunt = p.hunt ∧
    (refreshWrite k e expiry taken p).records = p.records ∧ (refreshWrite k e expiry taken p).notices = p.notices ∧
    (refreshWrite k e expiry taken p).links = p.links := by
  unfold refreshWrite
  (repeat' split) <;> simp

@[simp] theorem refreshOperator_frame (k : LinkId) (e : BlockEntry) (expiry : Option Nat) (p : Part) :
    (refreshOperator k e expiry p).started = p.started ∧ (refreshOperator k e expiry p).coldInput = p.coldInput ∧
    (refreshOperator k e expiry p).clock = p.clock ∧ (refreshOperator k e expiry p).intake = p.intake ∧
    (refreshOperator k e expiry p).elements = p.elements ∧ (refreshOperator k e expiry p).mech = p.mech ∧
    (refreshOperator k e expiry p).seq = p.seq ∧ (refreshOperator k e expiry p).posture = p.posture ∧
    (refreshOperator k e expiry p).table = p.table ∧ (refreshOperator k e expiry p).hunt = p.hunt ∧
    (refreshOperator k e expiry p).records = p.records ∧ (refreshOperator k e expiry p).links = p.links := by
  unfold refreshOperator
  (repeat' split) <;> simp

@[simp] theorem refresh_frame (k : LinkId) (e : BlockEntry) (expiry : Option Nat) (p : Part) :
    (refresh k e expiry p).1.started = p.started ∧ (refresh k e expiry p).1.coldInput = p.coldInput ∧
    (refresh k e expiry p).1.clock = p.clock ∧ (refresh k e expiry p).1.intake = p.intake ∧
    (refresh k e expiry p).1.elements = p.elements ∧ (refresh k e expiry p).1.mech = p.mech ∧
    (refresh k e expiry p).1.seq = p.seq ∧ (refresh k e expiry p).1.posture = p.posture ∧
    (refresh k e expiry p).1.table = p.table ∧ (refresh k e expiry p).1.hunt = p.hunt ∧
    (refresh k e expiry p).1.records = p.records ∧ (refresh k e expiry p).1.links = p.links := by
  unfold refresh
  (repeat' split) <;> simp

@[simp] theorem placeKind_frame (k : LinkId) (m : Master) (kind : BlockKind) (reason : Byte) (minutes : Nat) (p : Part) :
    (placeKind k m kind reason minutes p).1.started = p.started ∧
    (placeKind k m kind reason minutes p).1.coldInput = p.coldInput ∧
    (placeKind k m kind reason minutes p).1.clock = p.clock ∧
    (placeKind k m kind reason minutes p).1.intake = p.intake ∧
    (placeKind k m kind reason minutes p).1.table = p.table ∧
    (placeKind k m kind reason minutes p).1.links = p.links := by
  unfold placeKind
  (repeat' split) <;> simp

@[simp] theorem askPlaceBlock_frame (k : LinkId) (m : Master) (kind reason : Byte) (expiry : Half) (p : Part) :
    (askPlaceBlock k m kind reason expiry p).1.started = p.started ∧
    (askPlaceBlock k m kind reason expiry p).1.coldInput = p.coldInput ∧
    (askPlaceBlock k m kind reason expiry p).1.clock = p.clock ∧
    (askPlaceBlock k m kind reason expiry p).1.intake = p.intake ∧
    (askPlaceBlock k m kind reason expiry p).1.table = p.table ∧
    (askPlaceBlock k m kind reason expiry p).1.links = p.links := by
  unfold askPlaceBlock
  (repeat' split) <;> simp

@[simp] theorem leaveEntry_frame (e : BlockEntry) (p : Part) :
    (leaveEntry e p).started = p.started ∧ (leaveEntry e p).coldInput = p.coldInput ∧
    (leaveEntry e p).clock = p.clock ∧ (leaveEntry e p).intake = p.intake ∧ (leaveEntry e p).table = p.table ∧
    (leaveEntry e p).links = p.links ∧ (leaveEntry e p).store = p.store := by
  unfold leaveEntry
  (repeat' split) <;> simp

@[simp] theorem removeEntry_frame (e : BlockEntry) (k : Option LinkId) (p : Part) :
    (removeEntry e k p).started = p.started ∧ (removeEntry e k p).coldInput = p.coldInput ∧
    (removeEntry e k p).clock = p.clock ∧ (removeEntry e k p).intake = p.intake ∧
    (removeEntry e k p).table = p.table ∧ (removeEntry e k p).links = p.links := by
  unfold removeEntry
  simp

@[simp] theorem removeKind_frame (k : LinkId) (kind : BlockKind) (owner : Option Owner) (reason : Byte) (p : Part) :
    (removeKind k kind owner reason p).1.started = p.started ∧
    (removeKind k kind owner reason p).1.coldInput = p.coldInput ∧
    (removeKind k kind owner reason p).1.clock = p.clock ∧ (removeKind k kind owner reason p).1.intake = p.intake ∧
    (removeKind k kind owner reason p).1.table = p.table ∧ (removeKind k kind owner reason p).1.links = p.links := by
  unfold removeKind
  (repeat' split) <;> simp

@[simp] theorem askRemoveBlock_frame (k : LinkId) (m : Master) (kind owner reason : Byte) (p : Part) :
    (askRemoveBlock k m kind owner reason p).1.started = p.started ∧
    (askRemoveBlock k m kind owner reason p).1.coldInput = p.coldInput ∧
    (askRemoveBlock k m kind owner reason p).1.clock = p.clock ∧
    (askRemoveBlock k m kind owner reason p).1.intake = p.intake ∧
    (askRemoveBlock k m kind owner reason p).1.table = p.table ∧
    (askRemoveBlock k m kind owner reason p).1.links = p.links := by
  unfold askRemoveBlock
  (repeat' split) <;> simp

@[simp] theorem blockExpired_frame (m : Master) (reason : Byte) (p : Part) :
    (blockExpired m reason p).started = p.started ∧ (blockExpired m reason p).coldInput = p.coldInput ∧
    (blockExpired m reason p).intake = p.intake ∧ (blockExpired m reason p).table = p.table ∧
    (blockExpired m reason p).links = p.links := by
  unfold blockExpired
  (repeat' split) <;> simp

@[simp] theorem countWindows_frame (mode : Mode) (p : Part) :
    (countWindows mode p).started = p.started ∧ (countWindows mode p).coldInput = p.coldInput ∧
    (countWindows mode p).clock = p.clock ∧ (countWindows mode p).intake = p.intake ∧
    (countWindows mode p).mech = p.mech ∧ (countWindows mode p).seq = p.seq ∧
    (countWindows mode p).entries = p.entries ∧ (countWindows mode p).posture = p.posture ∧
    (countWindows mode p).table = p.table ∧ (countWindows mode p).hunt = p.hunt ∧
    (countWindows mode p).records = p.records ∧ (countWindows mode p).notices = p.notices ∧
    (countWindows mode p).links = p.links ∧ (countWindows mode p).store = p.store := by
  unfold countWindows
  (repeat' split) <;> simp

@[simp] theorem routeDecision_frame (mode : Mode) (d : Decision) (p : Part) :
    (routeDecision mode d p).started = p.started ∧ (routeDecision mode d p).coldInput = p.coldInput ∧
    (routeDecision mode d p).clock = p.clock ∧ (routeDecision mode d p).intake = p.intake ∧
    (routeDecision mode d p).posture = p.posture ∧ (routeDecision mode d p).table = p.table ∧
    (routeDecision mode d p).links = p.links ∧ (routeDecision mode d p).store = p.store := by
  unfold routeDecision
  (repeat' split) <;> simp

@[simp] theorem handStep_frame (mode : Mode) (residual : Channel) (p : Part) :
    (handStep mode residual p).started = p.started ∧ (handStep mode residual p).coldInput = p.coldInput ∧
    (handStep mode residual p).clock = p.clock ∧ (handStep mode residual p).intake = p.intake ∧
    (handStep mode residual p).posture = p.posture ∧ (handStep mode residual p).table = p.table ∧
    (handStep mode residual p).links = p.links ∧ (handStep mode residual p).store = p.store := by
  unfold handStep
  (repeat' split) <;> simp

@[simp] theorem elementsRun_frame (p : Part) :
    (elementsRun p).started = p.started ∧ (elementsRun p).coldInput = p.coldInput ∧ (elementsRun p).clock = p.clock ∧
    (elementsRun p).mech = p.mech ∧ (elementsRun p).seq = p.seq ∧ (elementsRun p).entries = p.entries ∧
    (elementsRun p).posture = p.posture ∧ (elementsRun p).table = p.table ∧ (elementsRun p).hunt = p.hunt ∧
    (elementsRun p).records = p.records ∧ (elementsRun p).notices = p.notices ∧ (elementsRun p).links = p.links ∧
    (elementsRun p).store = p.store := by
  unfold elementsRun
  simp

@[simp] theorem runningStep_frame (p : Part) :
    (runningStep p).started = p.started ∧ (runningStep p).coldInput = p.coldInput ∧ (runningStep p).clock = p.clock ∧
    (runningStep p).posture = p.posture ∧ (runningStep p).table = p.table ∧ (runningStep p).links = p.links ∧
    (runningStep p).store = p.store := by
  unfold runningStep
  simp

@[simp] theorem countOpen_frame (p : Part) :
    (countOpen p).started = p.started ∧ (countOpen p).coldInput = p.coldInput ∧ (countOpen p).clock = p.clock ∧
    (countOpen p).intake = p.intake ∧ (countOpen p).mech = p.mech ∧ (countOpen p).seq = p.seq ∧
    (countOpen p).entries = p.entries ∧ (countOpen p).posture = p.posture ∧ (countOpen p).table = p.table ∧
    (countOpen p).hunt = p.hunt ∧ (countOpen p).records = p.records ∧ (countOpen p).notices = p.notices ∧
    (countOpen p).links = p.links ∧ (countOpen p).store = p.store := by
  unfold countOpen
  (repeat' split) <;> simp

@[simp] theorem elementsStep_frame (p : Part) :
    (elementsStep p).started = p.started ∧ (elementsStep p).coldInput = p.coldInput ∧
    (elementsStep p).clock = p.clock ∧ (elementsStep p).posture = p.posture ∧ (elementsStep p).table = p.table ∧
    (elementsStep p).links = p.links ∧ (elementsStep p).store = p.store := by
  unfold elementsStep
  dsimp only
  (repeat' split) <;> simp

@[simp] theorem sotfEnded_frame (p : Part) :
    (sotfEnded p).started = p.started ∧ (sotfEnded p).coldInput = p.coldInput ∧ (sotfEnded p).clock = p.clock ∧
    (sotfEnded p).intake = p.intake ∧ (sotfEnded p).mech = p.mech ∧ (sotfEnded p).seq = p.seq ∧
    (sotfEnded p).entries = p.entries ∧ (sotfEnded p).posture = p.posture ∧ (sotfEnded p).table = p.table ∧
    (sotfEnded p).hunt = p.hunt ∧ (sotfEnded p).records = p.records ∧ (sotfEnded p).notices = p.notices ∧
    (sotfEnded p).links = p.links ∧ (sotfEnded p).store = p.store := by
  unfold sotfEnded
  simp

@[simp] theorem coldLoadEnded_frame (p : Part) :
    (coldLoadEnded p).started = p.started ∧ (coldLoadEnded p).coldInput = p.coldInput ∧
    (coldLoadEnded p).clock = p.clock ∧ (coldLoadEnded p).intake = p.intake ∧ (coldLoadEnded p).mech = p.mech ∧
    (coldLoadEnded p).seq = p.seq ∧ (coldLoadEnded p).entries = p.entries ∧ (coldLoadEnded p).posture = p.posture ∧
    (coldLoadEnded p).table = p.table ∧ (coldLoadEnded p).hunt = p.hunt ∧ (coldLoadEnded p).records = p.records ∧
    (coldLoadEnded p).notices = p.notices ∧ (coldLoadEnded p).links = p.links ∧
    (coldLoadEnded p).store = p.store := by
  unfold coldLoadEnded
  simp

@[simp] theorem quietEnded_frame (p : Part) :
    (quietEnded p).started = p.started ∧ (quietEnded p).coldInput = p.coldInput ∧ (quietEnded p).clock = p.clock ∧
    (quietEnded p).intake = p.intake ∧ (quietEnded p).mech = p.mech ∧ (quietEnded p).seq = p.seq ∧
    (quietEnded p).entries = p.entries ∧ (quietEnded p).posture = p.posture ∧ (quietEnded p).table = p.table ∧
    (quietEnded p).hunt = p.hunt ∧ (quietEnded p).records = p.records ∧ (quietEnded p).notices = p.notices ∧
    (quietEnded p).links = p.links ∧ (quietEnded p).store = p.store := by
  unfold quietEnded
  simp

@[simp] theorem huntWindowEnded_frame (p : Part) :
    (huntWindowEnded p).started = p.started ∧ (huntWindowEnded p).coldInput = p.coldInput ∧
    (huntWindowEnded p).clock = p.clock ∧ (huntWindowEnded p).intake = p.intake ∧
    (huntWindowEnded p).posture = p.posture ∧ (huntWindowEnded p).table = p.table ∧
    (huntWindowEnded p).links = p.links ∧ (huntWindowEnded p).store = p.store := by
  unfold huntWindowEnded
  (repeat' split) <;> simp

@[simp] theorem askLossTrip_frame (p : Part) :
    (askLossTrip p).started = p.started ∧ (askLossTrip p).coldInput = p.coldInput ∧ (askLossTrip p).clock = p.clock ∧
    (askLossTrip p).intake = p.intake ∧ (askLossTrip p).posture = p.posture ∧ (askLossTrip p).table = p.table ∧
    (askLossTrip p).links = p.links ∧ (askLossTrip p).store = p.store := by
  unfold askLossTrip
  (repeat' split) <;> simp

@[simp] theorem enterLost_frame (p : Part) :
    (enterLost p).started = p.started ∧ (enterLost p).coldInput = p.coldInput ∧ (enterLost p).clock = p.clock ∧
    (enterLost p).posture = p.posture ∧ (enterLost p).table = p.table ∧ (enterLost p).links = p.links ∧
    (enterLost p).store = p.store := by
  unfold enterLost
  simp

@[simp] theorem enterGood_frame (p : Part) :
    (enterGood p).started = p.started ∧ (enterGood p).coldInput = p.coldInput ∧ (enterGood p).clock = p.clock ∧
    (enterGood p).elements = p.elements ∧ (enterGood p).mech = p.mech ∧ (enterGood p).seq = p.seq ∧
    (enterGood p).posture = p.posture ∧ (enterGood p).table = p.table ∧ (enterGood p).hunt = p.hunt ∧
    (enterGood p).records = p.records ∧ (enterGood p).links = p.links ∧ (enterGood p).store = p.store := by
  unfold enterGood
  simp

@[simp] theorem addLoss_frame (n : Nat) (p : Part) :
    (addLoss n p).started = p.started ∧ (addLoss n p).coldInput = p.coldInput ∧ (addLoss n p).clock = p.clock ∧
    (addLoss n p).posture = p.posture ∧ (addLoss n p).table = p.table ∧ (addLoss n p).links = p.links ∧
    (addLoss n p).store = p.store := by
  unfold addLoss
  dsimp only
  (repeat' split) <;> simp

@[simp] theorem dropLoss_frame (p : Part) :
    (dropLoss p).started = p.started ∧ (dropLoss p).coldInput = p.coldInput ∧ (dropLoss p).clock = p.clock ∧
    (dropLoss p).elements = p.elements ∧ (dropLoss p).mech = p.mech ∧ (dropLoss p).seq = p.seq ∧
    (dropLoss p).posture = p.posture ∧ (dropLoss p).table = p.table ∧ (dropLoss p).hunt = p.hunt ∧
    (dropLoss p).records = p.records ∧ (dropLoss p).links = p.links ∧ (dropLoss p).store = p.store := by
  unfold dropLoss
  dsimp only
  (repeat' split) <;> simp

@[simp] theorem setSource_frame (live : Bool) (hold : Nat) (p : Part) :
    (setSource live hold p).started = p.started ∧ (setSource live hold p).coldInput = p.coldInput ∧
    (setSource live hold p).clock = p.clock ∧ (setSource live hold p).posture = p.posture ∧
    (setSource live hold p).table = p.table ∧ (setSource live hold p).links = p.links ∧
    (setSource live hold p).store = p.store := by
  unfold setSource
  (repeat' split) <;> simp

@[simp] theorem missSource_frame (p : Part) :
    (missSource p).started = p.started ∧ (missSource p).coldInput = p.coldInput ∧ (missSource p).clock = p.clock ∧
    (missSource p).posture = p.posture ∧ (missSource p).table = p.table ∧ (missSource p).links = p.links ∧
    (missSource p).store = p.store := by
  unfold missSource
  (repeat' split) <;> simp

@[simp] theorem stepChannels_frame (kind : StepKind) (ch : Quad Channel) (p : Part) :
    (stepChannels kind ch p).started = p.started ∧ (stepChannels kind ch p).coldInput = p.coldInput ∧
    (stepChannels kind ch p).clock = p.clock ∧ (stepChannels kind ch p).elements = p.elements ∧
    (stepChannels kind ch p).mech = p.mech ∧ (stepChannels kind ch p).seq = p.seq ∧
    (stepChannels kind ch p).entries = p.entries ∧ (stepChannels kind ch p).posture = p.posture ∧
    (stepChannels kind ch p).table = p.table ∧ (stepChannels kind ch p).hunt = p.hunt ∧
    (stepChannels kind ch p).records = p.records ∧ (stepChannels kind ch p).notices = p.notices ∧
    (stepChannels kind ch p).links = p.links ∧ (stepChannels kind ch p).store = p.store := by
  unfold stepChannels
  simp

@[simp] theorem countFrame_frame (p : Part) :
    (countFrame p).started = p.started ∧ (countFrame p).coldInput = p.coldInput ∧ (countFrame p).clock = p.clock ∧
    (countFrame p).posture = p.posture ∧ (countFrame p).table = p.table ∧ (countFrame p).links = p.links ∧
    (countFrame p).store = p.store := by
  unfold countFrame
  (repeat' split) <;> simp

@[simp] theorem frameStep_frame (r : Quad Reading) (p : Part) :
    (frameStep r p).started = p.started ∧ (frameStep r p).coldInput = p.coldInput ∧ (frameStep r p).clock = p.clock ∧
    (frameStep r p).posture = p.posture ∧ (frameStep r p).table = p.table ∧ (frameStep r p).links = p.links ∧
    (frameStep r p).store = p.store := by
  unfold frameStep
  simp

@[simp] theorem missingStep_frame (p : Part) :
    (missingStep p).started = p.started ∧ (missingStep p).coldInput = p.coldInput ∧ (missingStep p).clock = p.clock ∧
    (missingStep p).posture = p.posture ∧ (missingStep p).table = p.table ∧ (missingStep p).links = p.links ∧
    (missingStep p).store = p.store := by
  unfold missingStep
  simp

@[simp] theorem acceptFrame_frame (g : Nat) (f : FrameRecord) (p : Part) :
    (acceptFrame g f p).started = p.started ∧ (acceptFrame g f p).coldInput = p.coldInput ∧
    (acceptFrame g f p).clock = p.clock ∧ (acceptFrame g f p).posture = p.posture ∧
    (acceptFrame g f p).table = p.table ∧ (acceptFrame g f p).links = p.links ∧
    (acceptFrame g f p).store = p.store := by
  unfold acceptFrame
  simp

@[simp] theorem checkFrame_frame (f : FrameRecord) (p : Part) :
    (checkFrame f p).started = p.started ∧ (checkFrame f p).coldInput = p.coldInput ∧
    (checkFrame f p).clock = p.clock ∧ (checkFrame f p).posture = p.posture ∧ (checkFrame f p).table = p.table ∧
    (checkFrame f p).links = p.links ∧ (checkFrame f p).store = p.store := by
  unfold checkFrame
  dsimp only
  (repeat' split) <;> simp

@[simp] theorem takeFrame_frame (bytes : List Byte) (p : Part) :
    (takeFrame bytes p).started = p.started ∧ (takeFrame bytes p).coldInput = p.coldInput ∧
    (takeFrame bytes p).clock = p.clock ∧ (takeFrame bytes p).posture = p.posture ∧
    (takeFrame bytes p).table = p.table ∧ (takeFrame bytes p).links = p.links ∧
    (takeFrame bytes p).store = p.store := by
  unfold takeFrame
  (repeat' split) <;> simp

@[simp] theorem frameDueEnded_frame (p : Part) :
    (frameDueEnded p).started = p.started ∧ (frameDueEnded p).coldInput = p.coldInput ∧
    (frameDueEnded p).clock = p.clock ∧ (frameDueEnded p).posture = p.posture ∧ (frameDueEnded p).table = p.table ∧
    (frameDueEnded p).links = p.links ∧ (frameDueEnded p).store = p.store := by
  unfold frameDueEnded
  simp

@[simp] theorem askClearQuality_frame (p : Part) :
    (askClearQuality p).1.started = p.started ∧ (askClearQuality p).1.coldInput = p.coldInput ∧
    (askClearQuality p).1.clock = p.clock ∧ (askClearQuality p).1.elements = p.elements ∧
    (askClearQuality p).1.mech = p.mech ∧ (askClearQuality p).1.seq = p.seq ∧
    (askClearQuality p).1.entries = p.entries ∧ (askClearQuality p).1.posture = p.posture ∧
    (askClearQuality p).1.table = p.table ∧ (askClearQuality p).1.hunt = p.hunt ∧
    (askClearQuality p).1.records = p.records ∧ (askClearQuality p).1.notices = p.notices ∧
    (askClearQuality p).1.links = p.links ∧ (askClearQuality p).1.store = p.store := by
  unfold askClearQuality
  simp

@[simp] theorem readContacts_frame (openMade closedMade : Bool) (p : Part) :
    (readContacts openMade closedMade p).started = p.started ∧
    (readContacts openMade closedMade p).coldInput = p.coldInput ∧
    (readContacts openMade closedMade p).clock = p.clock ∧ (readContacts openMade closedMade p).intake = p.intake ∧
    (readContacts openMade closedMade p).entries = p.entries ∧
    (readContacts openMade closedMade p).posture = p.posture ∧ (readContacts openMade closedMade p).table = p.table ∧
    (readContacts openMade closedMade p).hunt = p.hunt ∧ (readContacts openMade closedMade p).records = p.records ∧
    (readContacts openMade closedMade p).notices = p.notices ∧ (readContacts openMade closedMade p).links = p.links ∧
    (readContacts openMade closedMade p).store = p.store := by
  unfold readContacts
  simp

@[simp] theorem openedTaken_frame (by' : Option Placer) (p : Part) :
    (openedTaken by' p).started = p.started ∧ (openedTaken by' p).coldInput = p.coldInput ∧
    (openedTaken by' p).clock = p.clock ∧ (openedTaken by' p).intake = p.intake ∧
    (openedTaken by' p).posture = p.posture ∧ (openedTaken by' p).table = p.table ∧
    (openedTaken by' p).links = p.links ∧ (openedTaken by' p).store = p.store := by
  unfold openedTaken
  (repeat' split) <;> simp

@[simp] theorem closedTaken_frame (by' : Option Placer) (p : Part) :
    (closedTaken by' p).started = p.started ∧ (closedTaken by' p).coldInput = p.coldInput ∧
    (closedTaken by' p).clock = p.clock ∧ (closedTaken by' p).intake = p.intake ∧ (closedTaken by' p).mech = p.mech ∧
    (closedTaken by' p).posture = p.posture ∧ (closedTaken by' p).table = p.table ∧
    (closedTaken by' p).records = p.records ∧ (closedTaken by' p).links = p.links ∧
    (closedTaken by' p).store = p.store := by
  unfold closedTaken
  (repeat' split) <;> simp

@[simp] theorem huntExternal_frame (p : Part) :
    (huntExternal p).started = p.started ∧ (huntExternal p).coldInput = p.coldInput ∧
    (huntExternal p).clock = p.clock ∧ (huntExternal p).intake = p.intake ∧ (huntExternal p).posture = p.posture ∧
    (huntExternal p).table = p.table ∧ (huntExternal p).links = p.links ∧ (huntExternal p).store = p.store := by
  unfold huntExternal
  simp

@[simp] theorem announceOpen_frame (byOrder : Bool) (p : Part) :
    (announceOpen byOrder p).started = p.started ∧ (announceOpen byOrder p).coldInput = p.coldInput ∧
    (announceOpen byOrder p).clock = p.clock ∧ (announceOpen byOrder p).intake = p.intake ∧
    (announceOpen byOrder p).posture = p.posture ∧ (announceOpen byOrder p).table = p.table ∧
    (announceOpen byOrder p).links = p.links ∧ (announceOpen byOrder p).store = p.store := by
  unfold announceOpen
  (repeat' split) <;> simp

@[simp] theorem announceClosed_frame (byOrder : Bool) (p : Part) :
    (announceClosed byOrder p).started = p.started ∧ (announceClosed byOrder p).coldInput = p.coldInput ∧
    (announceClosed byOrder p).clock = p.clock ∧ (announceClosed byOrder p).intake = p.intake ∧
    (announceClosed byOrder p).posture = p.posture ∧ (announceClosed byOrder p).table = p.table ∧
    (announceClosed byOrder p).links = p.links ∧ (announceClosed byOrder p).store = p.store := by
  unfold announceClosed
  (repeat' split) <;> simp

@[simp] theorem completeTrip_frame (p : Part) :
    (completeTrip p).started = p.started ∧ (completeTrip p).coldInput = p.coldInput ∧
    (completeTrip p).clock = p.clock ∧ (completeTrip p).intake = p.intake ∧ (completeTrip p).posture = p.posture ∧
    (completeTrip p).table = p.table ∧ (completeTrip p).links = p.links ∧ (completeTrip p).store = p.store := by
  unfold completeTrip
  (repeat' split) <;> simp

@[simp] theorem becomesOpen_frame (p : Part) :
    (becomesOpen p).started = p.started ∧ (becomesOpen p).coldInput = p.coldInput ∧ (becomesOpen p).clock = p.clock ∧
    (becomesOpen p).intake = p.intake ∧ (becomesOpen p).posture = p.posture ∧ (becomesOpen p).table = p.table ∧
    (becomesOpen p).links = p.links ∧ (becomesOpen p).store = p.store := by
  unfold becomesOpen
  (repeat' split) <;> simp

@[simp] theorem completeClose_frame (p : Part) :
    (completeClose p).started = p.started ∧ (completeClose p).coldInput = p.coldInput ∧
    (completeClose p).clock = p.clock ∧ (completeClose p).intake = p.intake ∧ (completeClose p).posture = p.posture ∧
    (completeClose p).table = p.table ∧ (completeClose p).records = p.records ∧ (completeClose p).links = p.links ∧
    (completeClose p).store = p.store := by
  unfold completeClose
  (repeat' split) <;> simp

@[simp] theorem becomesClosed_frame (p : Part) :
    (becomesClosed p).started = p.started ∧ (becomesClosed p).coldInput = p.coldInput ∧
    (becomesClosed p).clock = p.clock ∧ (becomesClosed p).intake = p.intake ∧ (becomesClosed p).posture = p.posture ∧
    (becomesClosed p).table = p.table ∧ (becomesClosed p).links = p.links ∧ (becomesClosed p).store = p.store := by
  unfold becomesClosed
  (repeat' split) <;> simp

@[simp] theorem moveContacts_frame (openMade closedMade : Bool) (p : Part) :
    (moveContacts openMade closedMade p).started = p.started ∧
    (moveContacts openMade closedMade p).coldInput = p.coldInput ∧
    (moveContacts openMade closedMade p).clock = p.clock ∧ (moveContacts openMade closedMade p).intake = p.intake ∧
    (moveContacts openMade closedMade p).elements = p.elements ∧ (moveContacts openMade closedMade p).seq = p.seq ∧
    (moveContacts openMade closedMade p).entries = p.entries ∧
    (moveContacts openMade closedMade p).posture = p.posture ∧ (moveContacts openMade closedMade p).table = p.table ∧
    (moveContacts openMade closedMade p).hunt = p.hunt ∧ (moveContacts openMade closedMade p).records = p.records ∧
    (moveContacts openMade closedMade p).notices = p.notices ∧ (moveContacts openMade closedMade p).links = p.links ∧
    (moveContacts openMade closedMade p).store = p.store := by
  unfold moveContacts
  simp

@[simp] theorem contactsChanged_frame (openMade closedMade : Bool) (p : Part) :
    (contactsChanged openMade closedMade p).started = p.started ∧
    (contactsChanged openMade closedMade p).coldInput = p.coldInput ∧
    (contactsChanged openMade closedMade p).clock = p.clock ∧
    (contactsChanged openMade closedMade p).intake = p.intake ∧
    (contactsChanged openMade closedMade p).posture = p.posture ∧
    (contactsChanged openMade closedMade p).table = p.table ∧
    (contactsChanged openMade closedMade p).links = p.links ∧
    (contactsChanged openMade closedMade p).store = p.store := by
  unfold contactsChanged
  dsimp only
  (repeat' split) <;> simp

@[simp] theorem positionFailure_frame (p : Part) :
    (positionFailure p).started = p.started ∧ (positionFailure p).coldInput = p.coldInput ∧
    (positionFailure p).clock = p.clock ∧ (positionFailure p).intake = p.intake ∧
    (positionFailure p).posture = p.posture ∧ (positionFailure p).table = p.table ∧
    (positionFailure p).links = p.links ∧ (positionFailure p).store = p.store := by
  unfold positionFailure
  simp

@[simp] theorem travelEnded_frame (p : Part) :
    (travelEnded p).started = p.started ∧ (travelEnded p).coldInput = p.coldInput ∧ (travelEnded p).clock = p.clock ∧
    (travelEnded p).intake = p.intake ∧ (travelEnded p).posture = p.posture ∧ (travelEnded p).table = p.table ∧
    (travelEnded p).links = p.links ∧ (travelEnded p).store = p.store := by
  unfold travelEnded
  simp

@[simp] theorem discrepancyEnded_frame (p : Part) :
    (discrepancyEnded p).started = p.started ∧ (discrepancyEnded p).coldInput = p.coldInput ∧
    (discrepancyEnded p).clock = p.clock ∧ (discrepancyEnded p).intake = p.intake ∧
    (discrepancyEnded p).posture = p.posture ∧ (discrepancyEnded p).table = p.table ∧
    (discrepancyEnded p).links = p.links ∧ (discrepancyEnded p).store = p.store := by
  unfold discrepancyEnded
  simp

@[simp] theorem tripFailTaken_frame (by' : Option Placer) (p : Part) :
    (tripFailTaken by' p).started = p.started ∧ (tripFailTaken by' p).coldInput = p.coldInput ∧
    (tripFailTaken by' p).clock = p.clock ∧ (tripFailTaken by' p).intake = p.intake ∧
    (tripFailTaken by' p).elements = p.elements ∧ (tripFailTaken by' p).mech = p.mech ∧
    (tripFailTaken by' p).entries = p.entries ∧ (tripFailTaken by' p).posture = p.posture ∧
    (tripFailTaken by' p).table = p.table ∧ (tripFailTaken by' p).hunt = p.hunt ∧
    (tripFailTaken by' p).records = p.records ∧ (tripFailTaken by' p).notices = p.notices ∧
    (tripFailTaken by' p).links = p.links ∧ (tripFailTaken by' p).store = p.store := by
  unfold tripFailTaken
  (repeat' split) <;> simp

@[simp] theorem tripTimedOut_frame (p : Part) :
    (tripTimedOut p).started = p.started ∧ (tripTimedOut p).coldInput = p.coldInput ∧
    (tripTimedOut p).clock = p.clock ∧ (tripTimedOut p).intake = p.intake ∧ (tripTimedOut p).posture = p.posture ∧
    (tripTimedOut p).table = p.table ∧ (tripTimedOut p).links = p.links ∧ (tripTimedOut p).store = p.store := by
  unfold tripTimedOut
  (repeat' split) <;> simp

@[simp] theorem closeFailTaken_frame (by' : Option Placer) (p : Part) :
    (closeFailTaken by' p).started = p.started ∧ (closeFailTaken by' p).coldInput = p.coldInput ∧
    (closeFailTaken by' p).clock = p.clock ∧ (closeFailTaken by' p).intake = p.intake ∧
    (closeFailTaken by' p).elements = p.elements ∧ (closeFailTaken by' p).mech = p.mech ∧
    (closeFailTaken by' p).entries = p.entries ∧ (closeFailTaken by' p).posture = p.posture ∧
    (closeFailTaken by' p).table = p.table ∧ (closeFailTaken by' p).hunt = p.hunt ∧
    (closeFailTaken by' p).records = p.records ∧ (closeFailTaken by' p).notices = p.notices ∧
    (closeFailTaken by' p).links = p.links ∧ (closeFailTaken by' p).store = p.store := by
  unfold closeFailTaken
  (repeat' split) <;> simp

@[simp] theorem closeTimedOut_frame (p : Part) :
    (closeTimedOut p).started = p.started ∧ (closeTimedOut p).coldInput = p.coldInput ∧
    (closeTimedOut p).clock = p.clock ∧ (closeTimedOut p).intake = p.intake ∧ (closeTimedOut p).posture = p.posture ∧
    (closeTimedOut p).table = p.table ∧ (closeTimedOut p).links = p.links ∧ (closeTimedOut p).store = p.store := by
  unfold closeTimedOut
  (repeat' split) <;> simp

@[simp] theorem energyChanged_frame (high : Bool) (p : Part) :
    (energyChanged high p).started = p.started ∧ (energyChanged high p).coldInput = p.coldInput ∧
    (energyChanged high p).clock = p.clock ∧ (energyChanged high p).intake = p.intake ∧
    (energyChanged high p).posture = p.posture ∧ (energyChanged high p).table = p.table ∧
    (energyChanged high p).links = p.links ∧ (energyChanged high p).store = p.store := by
  unfold energyChanged
  (repeat' split) <;> simp

@[simp] theorem askTrip_frame (m : Master) (p : Part) :
    (askTrip m p).1.started = p.started ∧ (askTrip m p).1.coldInput = p.coldInput ∧ (askTrip m p).1.clock = p.clock ∧
    (askTrip m p).1.intake = p.intake ∧ (askTrip m p).1.posture = p.posture ∧ (askTrip m p).1.table = p.table ∧
    (askTrip m p).1.links = p.links ∧ (askTrip m p).1.store = p.store := by
  unfold askTrip
  simp

@[simp] theorem askClose_frame (p : Part) :
    (askClose p).1.started = p.started ∧ (askClose p).1.coldInput = p.coldInput ∧ (askClose p).1.clock = p.clock ∧
    (askClose p).1.intake = p.intake ∧ (askClose p).1.entries = p.entries ∧ (askClose p).1.posture = p.posture ∧
    (askClose p).1.table = p.table ∧ (askClose p).1.hunt = p.hunt ∧ (askClose p).1.records = p.records ∧
    (askClose p).1.notices = p.notices ∧ (askClose p).1.links = p.links ∧ (askClose p).1.store = p.store := by
  unfold askClose
  have h := placeClose_frame .sequencer .manual p
  rcases hx : placeClose .sequencer .manual p with ⟨q, x⟩
  rw [hx] at h
  simp only at h
  (repeat' split) <;> simp_all

@[simp] theorem askResetMechanism_frame (p : Part) :
    (askResetMechanism p).1.started = p.started ∧ (askResetMechanism p).1.coldInput = p.coldInput ∧
    (askResetMechanism p).1.clock = p.clock ∧ (askResetMechanism p).1.intake = p.intake ∧
    (askResetMechanism p).1.elements = p.elements ∧ (askResetMechanism p).1.mech = p.mech ∧
    (askResetMechanism p).1.posture = p.posture ∧ (askResetMechanism p).1.table = p.table ∧
    (askResetMechanism p).1.hunt = p.hunt ∧ (askResetMechanism p).1.records = p.records ∧
    (askResetMechanism p).1.links = p.links ∧ (askResetMechanism p).1.store = p.store := by
  unfold askResetMechanism
  (repeat' split) <;> simp

@[simp] theorem writeHeader_frame (n timeout : Nat) (p : Part) :
    (writeHeader n timeout p).1.started = p.started ∧ (writeHeader n timeout p).1.coldInput = p.coldInput ∧
    (writeHeader n timeout p).1.clock = p.clock ∧ (writeHeader n timeout p).1.intake = p.intake ∧
    (writeHeader n timeout p).1.elements = p.elements ∧ (writeHeader n timeout p).1.mech = p.mech ∧
    (writeHeader n timeout p).1.seq = p.seq ∧ (writeHeader n timeout p).1.entries = p.entries ∧
    (writeHeader n timeout p).1.posture = p.posture ∧ (writeHeader n timeout p).1.hunt = p.hunt ∧
    (writeHeader n timeout p).1.records = p.records ∧ (writeHeader n timeout p).1.notices = p.notices ∧
    (writeHeader n timeout p).1.links = p.links ∧ (writeHeader n timeout p).1.store = p.store := by
  unfold writeHeader
  try dsimp only
  (repeat' split) <;> simp

@[simp] theorem writeEntry_frame (k ident operable : Nat) (p : Part) :
    (writeEntry k ident operable p).1.started = p.started ∧
    (writeEntry k ident operable p).1.coldInput = p.coldInput ∧ (writeEntry k ident operable p).1.clock = p.clock ∧
    (writeEntry k ident operable p).1.intake = p.intake ∧ (writeEntry k ident operable p).1.elements = p.elements ∧
    (writeEntry k ident operable p).1.mech = p.mech ∧ (writeEntry k ident operable p).1.seq = p.seq ∧
    (writeEntry k ident operable p).1.entries = p.entries ∧ (writeEntry k ident operable p).1.posture = p.posture ∧
    (writeEntry k ident operable p).1.hunt = p.hunt ∧ (writeEntry k ident operable p).1.records = p.records ∧
    (writeEntry k ident operable p).1.notices = p.notices ∧ (writeEntry k ident operable p).1.links = p.links ∧
    (writeEntry k ident operable p).1.store = p.store := by
  unfold writeEntry
  try dsimp only
  (repeat' split) <;> simp

@[simp] theorem askWriteSection_frame (target first : Byte) (second : Half) (p : Part) :
    (askWriteSection target first second p).1.started = p.started ∧
    (askWriteSection target first second p).1.coldInput = p.coldInput ∧
    (askWriteSection target first second p).1.clock = p.clock ∧
    (askWriteSection target first second p).1.intake = p.intake ∧
    (askWriteSection target first second p).1.elements = p.elements ∧
    (askWriteSection target first second p).1.mech = p.mech ∧ (askWriteSection target first second p).1.seq = p.seq ∧
    (askWriteSection target first second p).1.entries = p.entries ∧
    (askWriteSection target first second p).1.posture = p.posture ∧
    (askWriteSection target first second p).1.hunt = p.hunt ∧
    (askWriteSection target first second p).1.records = p.records ∧
    (askWriteSection target first second p).1.notices = p.notices ∧
    (askWriteSection target first second p).1.links = p.links ∧
    (askWriteSection target first second p).1.store = p.store := by
  unfold askWriteSection
  try dsimp only
  (repeat' split) <;> simp

@[simp] theorem sectionsConfirmed_frame (k : LinkId) (p : Part) :
    (sectionsConfirmed k p).1.started = p.started ∧ (sectionsConfirmed k p).1.coldInput = p.coldInput ∧
    (sectionsConfirmed k p).1.clock = p.clock ∧ (sectionsConfirmed k p).1.intake = p.intake ∧
    (sectionsConfirmed k p).1.elements = p.elements ∧ (sectionsConfirmed k p).1.mech = p.mech ∧
    (sectionsConfirmed k p).1.seq = p.seq ∧ (sectionsConfirmed k p).1.entries = p.entries ∧
    (sectionsConfirmed k p).1.posture = p.posture ∧ (sectionsConfirmed k p).1.hunt = p.hunt ∧
    (sectionsConfirmed k p).1.records = p.records ∧ (sectionsConfirmed k p).1.notices = p.notices ∧
    (sectionsConfirmed k p).1.links = p.links := by
  unfold sectionsConfirmed
  try dsimp only
  simp

@[simp] theorem askConfirmSections_frame (k : LinkId) (p : Part) :
    (askConfirmSections k p).1.started = p.started ∧ (askConfirmSections k p).1.coldInput = p.coldInput ∧
    (askConfirmSections k p).1.clock = p.clock ∧ (askConfirmSections k p).1.intake = p.intake ∧
    (askConfirmSections k p).1.elements = p.elements ∧ (askConfirmSections k p).1.mech = p.mech ∧
    (askConfirmSections k p).1.seq = p.seq ∧ (askConfirmSections k p).1.entries = p.entries ∧
    (askConfirmSections k p).1.posture = p.posture ∧ (askConfirmSections k p).1.hunt = p.hunt ∧
    (askConfirmSections k p).1.records = p.records ∧ (askConfirmSections k p).1.notices = p.notices ∧
    (askConfirmSections k p).1.links = p.links := by
  unfold askConfirmSections
  try dsimp only
  (repeat' split) <;> simp

@[simp] theorem askStartHunt_frame (m : Master) (p : Part) :
    (askStartHunt m p).1.started = p.started ∧ (askStartHunt m p).1.coldInput = p.coldInput ∧
    (askStartHunt m p).1.clock = p.clock ∧ (askStartHunt m p).1.intake = p.intake ∧
    (askStartHunt m p).1.posture = p.posture ∧ (askStartHunt m p).1.table = p.table ∧
    (askStartHunt m p).1.links = p.links ∧ (askStartHunt m p).1.store = p.store := by
  unfold askStartHunt
  try dsimp only
  (repeat' split) <;> simp

@[simp] theorem askAbortHunt_frame (m : Master) (p : Part) :
    (askAbortHunt m p).1.started = p.started ∧ (askAbortHunt m p).1.coldInput = p.coldInput ∧
    (askAbortHunt m p).1.clock = p.clock ∧ (askAbortHunt m p).1.intake = p.intake ∧
    (askAbortHunt m p).1.posture = p.posture ∧ (askAbortHunt m p).1.table = p.table ∧
    (askAbortHunt m p).1.links = p.links ∧ (askAbortHunt m p).1.store = p.store := by
  unfold askAbortHunt
  try dsimp only
  (repeat' split) <;> simp

@[simp] theorem reportTaken_frame (b : Believed) (reference : Nat) (before : SectionTable) (p : Part) :
    (reportTaken b reference before p).1.started = p.started ∧
    (reportTaken b reference before p).1.coldInput = p.coldInput ∧
    (reportTaken b reference before p).1.clock = p.clock ∧ (reportTaken b reference before p).1.intake = p.intake ∧
    (reportTaken b reference before p).1.posture = p.posture ∧ (reportTaken b reference before p).1.table = p.table ∧
    (reportTaken b reference before p).1.links = p.links ∧ (reportTaken b reference before p).1.store = p.store := by
  unfold reportTaken
  try dsimp only
  (repeat' split) <;> simp

@[simp] theorem askReportSwitch_frame (ident state : Byte) (reference : Half) (p : Part) :
    (askReportSwitch ident state reference p).1.started = p.started ∧
    (askReportSwitch ident state reference p).1.coldInput = p.coldInput ∧
    (askReportSwitch ident state reference p).1.clock = p.clock ∧
    (askReportSwitch ident state reference p).1.intake = p.intake ∧
    (askReportSwitch ident state reference p).1.posture = p.posture ∧
    (askReportSwitch ident state reference p).1.links = p.links ∧
    (askReportSwitch ident state reference p).1.store = p.store := by
  unfold askReportSwitch
  try dsimp only
  (repeat' split) <;> simp

@[simp] theorem takeKind_frame (m : Master) (k : NoticeKind) (p : Part) :
    (takeKind m k p).started = p.started ∧ (takeKind m k p).coldInput = p.coldInput ∧
    (takeKind m k p).clock = p.clock ∧ (takeKind m k p).intake = p.intake ∧ (takeKind m k p).elements = p.elements ∧
    (takeKind m k p).mech = p.mech ∧ (takeKind m k p).seq = p.seq ∧ (takeKind m k p).entries = p.entries ∧
    (takeKind m k p).posture = p.posture ∧ (takeKind m k p).table = p.table ∧ (takeKind m k p).hunt = p.hunt ∧
    (takeKind m k p).records = p.records ∧ (takeKind m k p).links = p.links ∧ (takeKind m k p).store = p.store := by
  unfold takeKind
  try dsimp only
  simp

@[simp] theorem askReadNotice_frame (m : Master) (p : Part) :
    (askReadNotice m p).1.started = p.started ∧ (askReadNotice m p).1.coldInput = p.coldInput ∧
    (askReadNotice m p).1.clock = p.clock ∧ (askReadNotice m p).1.intake = p.intake ∧
    (askReadNotice m p).1.elements = p.elements ∧ (askReadNotice m p).1.mech = p.mech ∧
    (askReadNotice m p).1.seq = p.seq ∧ (askReadNotice m p).1.entries = p.entries ∧
    (askReadNotice m p).1.posture = p.posture ∧ (askReadNotice m p).1.table = p.table ∧
    (askReadNotice m p).1.hunt = p.hunt ∧ (askReadNotice m p).1.records = p.records ∧
    (askReadNotice m p).1.links = p.links ∧ (askReadNotice m p).1.store = p.store := by
  unfold askReadNotice
  try dsimp only
  (repeat' split) <;> simp

@[simp] theorem askSetMask_frame (m : Master) (mask : Half) (p : Part) :
    (askSetMask m mask p).1.started = p.started ∧ (askSetMask m mask p).1.coldInput = p.coldInput ∧
    (askSetMask m mask p).1.clock = p.clock ∧ (askSetMask m mask p).1.intake = p.intake ∧
    (askSetMask m mask p).1.elements = p.elements ∧ (askSetMask m mask p).1.mech = p.mech ∧
    (askSetMask m mask p).1.seq = p.seq ∧ (askSetMask m mask p).1.entries = p.entries ∧
    (askSetMask m mask p).1.posture = p.posture ∧ (askSetMask m mask p).1.table = p.table ∧
    (askSetMask m mask p).1.hunt = p.hunt ∧ (askSetMask m mask p).1.records = p.records ∧
    (askSetMask m mask p).1.links = p.links ∧ (askSetMask m mask p).1.store = p.store := by
  unfold askSetMask
  try dsimp only
  (repeat' split) <;> simp

@[simp] theorem askSetHoldoff_frame (m : Master) (ms : Half) (p : Part) :
    (askSetHoldoff m ms p).1.started = p.started ∧ (askSetHoldoff m ms p).1.coldInput = p.coldInput ∧
    (askSetHoldoff m ms p).1.clock = p.clock ∧ (askSetHoldoff m ms p).1.intake = p.intake ∧
    (askSetHoldoff m ms p).1.elements = p.elements ∧ (askSetHoldoff m ms p).1.mech = p.mech ∧
    (askSetHoldoff m ms p).1.seq = p.seq ∧ (askSetHoldoff m ms p).1.entries = p.entries ∧
    (askSetHoldoff m ms p).1.posture = p.posture ∧ (askSetHoldoff m ms p).1.table = p.table ∧
    (askSetHoldoff m ms p).1.hunt = p.hunt ∧ (askSetHoldoff m ms p).1.records = p.records ∧
    (askSetHoldoff m ms p).1.links = p.links ∧ (askSetHoldoff m ms p).1.store = p.store := by
  unfold askSetHoldoff
  try dsimp only
  simp

@[simp] theorem holdoffEnded_frame (m : Master) (p : Part) :
    (holdoffEnded m p).started = p.started ∧ (holdoffEnded m p).coldInput = p.coldInput ∧
    (holdoffEnded m p).clock = p.clock ∧ (holdoffEnded m p).intake = p.intake ∧
    (holdoffEnded m p).elements = p.elements ∧ (holdoffEnded m p).mech = p.mech ∧ (holdoffEnded m p).seq = p.seq ∧
    (holdoffEnded m p).entries = p.entries ∧ (holdoffEnded m p).posture = p.posture ∧
    (holdoffEnded m p).table = p.table ∧ (holdoffEnded m p).hunt = p.hunt ∧ (holdoffEnded m p).records = p.records ∧
    (holdoffEnded m p).links = p.links ∧ (holdoffEnded m p).store = p.store := by
  unfold holdoffEnded
  try dsimp only
  simp

@[simp] theorem resetNotices_frame (m : Master) (p : Part) :
    (resetNotices m p).started = p.started ∧ (resetNotices m p).coldInput = p.coldInput ∧
    (resetNotices m p).clock = p.clock ∧ (resetNotices m p).intake = p.intake ∧
    (resetNotices m p).elements = p.elements ∧ (resetNotices m p).mech = p.mech ∧ (resetNotices m p).seq = p.seq ∧
    (resetNotices m p).entries = p.entries ∧ (resetNotices m p).posture = p.posture ∧
    (resetNotices m p).table = p.table ∧ (resetNotices m p).hunt = p.hunt ∧ (resetNotices m p).records = p.records ∧
    (resetNotices m p).links = p.links ∧ (resetNotices m p).store = p.store := by
  unfold resetNotices
  try dsimp only
  simp

@[simp] theorem countBad_frame (k : LinkId) (p : Part) :
    (countBad k p).started = p.started ∧ (countBad k p).coldInput = p.coldInput ∧ (countBad k p).clock = p.clock ∧
    (countBad k p).intake = p.intake ∧ (countBad k p).elements = p.elements ∧ (countBad k p).mech = p.mech ∧
    (countBad k p).seq = p.seq ∧ (countBad k p).entries = p.entries ∧ (countBad k p).posture = p.posture ∧
    (countBad k p).table = p.table ∧ (countBad k p).hunt = p.hunt ∧ (countBad k p).records = p.records ∧
    (countBad k p).store = p.store := by
  unfold countBad
  try dsimp only
  (repeat' split) <;> simp

@[simp] theorem countGood_frame (k : LinkId) (p : Part) :
    (countGood k p).started = p.started ∧ (countGood k p).coldInput = p.coldInput ∧ (countGood k p).clock = p.clock ∧
    (countGood k p).intake = p.intake ∧ (countGood k p).elements = p.elements ∧ (countGood k p).mech = p.mech ∧
    (countGood k p).seq = p.seq ∧ (countGood k p).entries = p.entries ∧ (countGood k p).posture = p.posture ∧
    (countGood k p).table = p.table ∧ (countGood k p).hunt = p.hunt ∧ (countGood k p).records = p.records ∧
    (countGood k p).store = p.store := by
  unfold countGood
  try dsimp only
  (repeat' split) <;> simp

@[simp] theorem resetHealth_frame (k : LinkId) (p : Part) :
    (resetHealth k p).started = p.started ∧ (resetHealth k p).coldInput = p.coldInput ∧
    (resetHealth k p).clock = p.clock ∧ (resetHealth k p).intake = p.intake ∧
    (resetHealth k p).elements = p.elements ∧ (resetHealth k p).mech = p.mech ∧ (resetHealth k p).seq = p.seq ∧
    (resetHealth k p).entries = p.entries ∧ (resetHealth k p).posture = p.posture ∧
    (resetHealth k p).table = p.table ∧ (resetHealth k p).hunt = p.hunt ∧ (resetHealth k p).records = p.records ∧
    (resetHealth k p).store = p.store := by
  unfold resetHealth
  try dsimp only
  (repeat' split) <;> simp

@[simp] theorem askResetLink_frame (k : LinkId) (m : Master) (p : Part) :
    (askResetLink k m p).1.started = p.started ∧ (askResetLink k m p).1.coldInput = p.coldInput ∧
    (askResetLink k m p).1.clock = p.clock ∧ (askResetLink k m p).1.intake = p.intake ∧
    (askResetLink k m p).1.elements = p.elements ∧ (askResetLink k m p).1.mech = p.mech ∧
    (askResetLink k m p).1.seq = p.seq ∧ (askResetLink k m p).1.entries = p.entries ∧
    (askResetLink k m p).1.posture = p.posture ∧ (askResetLink k m p).1.table = p.table ∧
    (askResetLink k m p).1.hunt = p.hunt ∧ (askResetLink k m p).1.records = p.records ∧
    (askResetLink k m p).1.store = p.store := by
  unfold askResetLink
  try dsimp only
  simp

@[simp] theorem ownerTakes_frame (k : LinkId) (m : Master) (r : Request) (p : Part) :
    (ownerTakes k m r p).1.started = p.started ∧ (ownerTakes k m r p).1.coldInput = p.coldInput ∧
    (ownerTakes k m r p).1.clock = p.clock := by
  unfold ownerTakes
  try dsimp only
  (repeat' split) <;> simp

@[simp] theorem weigh_frame (k : LinkId) (m : Master) (r : Request) (p : Part) :
    (weigh k m r p).1.started = p.started ∧ (weigh k m r p).1.coldInput = p.coldInput ∧
    (weigh k m r p).1.clock = p.clock := by
  unfold weigh
  try dsimp only
  (repeat' split) <;> simp

@[simp] theorem heard_frame (m : Master) (p : Part) :
    (heard m p).started = p.started ∧ (heard m p).coldInput = p.coldInput ∧ (heard m p).clock = p.clock ∧
    (heard m p).intake = p.intake ∧ (heard m p).table = p.table ∧ (heard m p).links = p.links ∧
    (heard m p).store = p.store := by
  unfold heard
  try dsimp only
  (repeat' split) <;> simp

@[simp] theorem wellFormed_frame (k : LinkId) (m : Master) (frame : List Byte) (p : Part) :
    (wellFormed k m frame p).started = p.started ∧ (wellFormed k m frame p).coldInput = p.coldInput ∧
    (wellFormed k m frame p).clock = p.clock ∧ (wellFormed k m frame p).intake = p.intake ∧
    (wellFormed k m frame p).table = p.table ∧ (wellFormed k m frame p).store = p.store := by
  unfold wellFormed
  try dsimp only
  simp

@[simp] theorem serve_frame (k : LinkId) (m : Master) (frame : List Byte) (r : Request) (p : Part) :
    (serve k m frame r p).started = p.started ∧ (serve k m frame r p).coldInput = p.coldInput ∧
    (serve k m frame r p).clock = p.clock := by
  unfold serve
  try dsimp only
  simp

@[simp] theorem takeFrameOn_frame (k : LinkId) (frame : List Byte) (p : Part) :
    (takeFrameOn k frame p).started = p.started ∧ (takeFrameOn k frame p).coldInput = p.coldInput ∧
    (takeFrameOn k frame p).clock = p.clock := by
  unfold takeFrameOn
  try dsimp only
  (repeat' split) <;> simp

@[simp] theorem deliver_frame (k : LinkId) (frame : List Byte) (p : Part) :
    (deliver k frame p).started = p.started ∧ (deliver k frame p).coldInput = p.coldInput ∧
    (deliver k frame p).clock = p.clock := by
  unfold deliver
  try dsimp only
  (repeat' split) <;> simp

@[simp] theorem becomeFree_frame (k : LinkId) (p : Part) :
    (becomeFree k p).started = p.started ∧ (becomeFree k p).coldInput = p.coldInput ∧
    (becomeFree k p).clock = p.clock := by
  unfold becomeFree
  try dsimp only
  (repeat' split) <;> simp

@[simp] theorem answerGone_frame (k : LinkId) (p : Part) :
    (answerGone k p).started = p.started ∧ (answerGone k p).coldInput = p.coldInput ∧
    (answerGone k p).clock = p.clock := by
  unfold answerGone
  try dsimp only
  (repeat' split) <;> simp

@[simp] theorem request_frame (k : LinkId) (r : Request) (p : Part) :
    (request k r p).started = p.started ∧ (request k r p).coldInput = p.coldInput ∧
    (request k r p).clock = p.clock := by
  unfold request
  try dsimp only
  (repeat' split) <;> simp

@[simp] theorem lengthByte_frame (k : LinkId) (b : Byte) (p : Part) :
    (lengthByte k b p).started = p.started ∧ (lengthByte k b p).coldInput = p.coldInput ∧
    (lengthByte k b p).clock = p.clock ∧ (lengthByte k b p).intake = p.intake ∧
    (lengthByte k b p).elements = p.elements ∧ (lengthByte k b p).mech = p.mech ∧ (lengthByte k b p).seq = p.seq ∧
    (lengthByte k b p).entries = p.entries ∧ (lengthByte k b p).posture = p.posture ∧
    (lengthByte k b p).table = p.table ∧ (lengthByte k b p).hunt = p.hunt ∧ (lengthByte k b p).records = p.records ∧
    (lengthByte k b p).store = p.store := by
  unfold lengthByte
  try dsimp only
  (repeat' split) <;> simp

@[simp] theorem frameByte_frame (k : LinkId) (b : Byte) (p : Part) :
    (frameByte k b p).started = p.started ∧ (frameByte k b p).coldInput = p.coldInput ∧
    (frameByte k b p).clock = p.clock := by
  unfold frameByte
  try dsimp only
  (repeat' split) <;> simp

@[simp] theorem byteTaken_frame (k : LinkId) (b : Byte) (p : Part) :
    (byteTaken k b p).started = p.started ∧ (byteTaken k b p).coldInput = p.coldInput ∧
    (byteTaken k b p).clock = p.clock := by
  unfold byteTaken
  try dsimp only
  (repeat' split) <;> simp

@[simp] theorem receiveByte_frame (k : LinkId) (b : Byte) (p : Part) :
    (receiveByte k b p).started = p.started ∧ (receiveByte k b p).coldInput = p.coldInput ∧
    (receiveByte k b p).clock = p.clock := by
  unfold receiveByte
  try dsimp only
  (repeat' split) <;> simp

@[simp] theorem gapEnded_frame (k : LinkId) (p : Part) :
    (gapEnded k p).started = p.started ∧ (gapEnded k p).coldInput = p.coldInput ∧ (gapEnded k p).clock = p.clock ∧
    (gapEnded k p).intake = p.intake ∧ (gapEnded k p).elements = p.elements ∧ (gapEnded k p).mech = p.mech ∧
    (gapEnded k p).seq = p.seq ∧ (gapEnded k p).entries = p.entries ∧ (gapEnded k p).posture = p.posture ∧
    (gapEnded k p).table = p.table ∧ (gapEnded k p).hunt = p.hunt ∧ (gapEnded k p).records = p.records ∧
    (gapEnded k p).store = p.store := by
  unfold gapEnded
  try dsimp only
  (repeat' split) <;> simp

@[simp] theorem quietWaitEnded_frame (k : LinkId) (p : Part) :
    (quietWaitEnded k p).started = p.started ∧ (quietWaitEnded k p).coldInput = p.coldInput ∧
    (quietWaitEnded k p).clock = p.clock ∧ (quietWaitEnded k p).intake = p.intake ∧
    (quietWaitEnded k p).elements = p.elements ∧ (quietWaitEnded k p).mech = p.mech ∧
    (quietWaitEnded k p).seq = p.seq ∧ (quietWaitEnded k p).entries = p.entries ∧
    (quietWaitEnded k p).posture = p.posture ∧ (quietWaitEnded k p).table = p.table ∧
    (quietWaitEnded k p).hunt = p.hunt ∧ (quietWaitEnded k p).records = p.records ∧
    (quietWaitEnded k p).notices = p.notices ∧ (quietWaitEnded k p).store = p.store := by
  unfold quietWaitEnded
  try dsimp only
  (repeat' split) <;> simp

@[simp] theorem releaseAnswer_frame (k : Option LinkId) (p : Part) :
    (releaseAnswer k p).started = p.started ∧ (releaseAnswer k p).coldInput = p.coldInput ∧
    (releaseAnswer k p).clock = p.clock ∧ (releaseAnswer k p).intake = p.intake ∧
    (releaseAnswer k p).elements = p.elements ∧ (releaseAnswer k p).mech = p.mech ∧ (releaseAnswer k p).seq = p.seq ∧
    (releaseAnswer k p).entries = p.entries ∧ (releaseAnswer k p).posture = p.posture ∧
    (releaseAnswer k p).table = p.table ∧ (releaseAnswer k p).hunt = p.hunt ∧
    (releaseAnswer k p).records = p.records ∧ (releaseAnswer k p).notices = p.notices ∧
    (releaseAnswer k p).store = p.store := by
  unfold releaseAnswer
  try dsimp only
  (repeat' split) <;> simp

@[simp] theorem writeCompleted_frame (p : Part) :
    (writeCompleted p).started = p.started ∧ (writeCompleted p).coldInput = p.coldInput ∧
    (writeCompleted p).clock = p.clock ∧ (writeCompleted p).intake = p.intake ∧
    (writeCompleted p).elements = p.elements ∧ (writeCompleted p).mech = p.mech ∧ (writeCompleted p).seq = p.seq ∧
    (writeCompleted p).entries = p.entries ∧ (writeCompleted p).posture = p.posture ∧
    (writeCompleted p).table = p.table ∧ (writeCompleted p).hunt = p.hunt ∧ (writeCompleted p).records = p.records ∧
    (writeCompleted p).notices = p.notices := by
  unfold writeCompleted
  try dsimp only
  (repeat' split) <;> simp

end Sys2Proof.Machine
end

