-- ==== Sys2Proof/Laws/Ops.lean ====
section
/-! SUPPORT. What the shared operations do: latching a notice, replacing a link, the list of entries, selection, the deadlines
and the Store's queue. -/

namespace Sys2Proof.Machine

/-! ## Kinds of notice -/

/-- Latching a kind adds it to the set and nothing else. -/
theorem holdsKind_or_bit (s : KindSet) (x n : NoticeKind) : holdsKind (s ||| n.bit) x = (holdsKind s x || decide (x = n)) := by
  cases x <;> cases n <;> simp [holdsKind, NoticeKind.bit, NoticeKind.priority]

/-- Clearing a kind takes it from the set and nothing else. -/
theorem holdsKind_clear_bit (s : KindSet) (n x : NoticeKind) :
    holdsKind (s &&& ~~~n.bit) x = (holdsKind s x && decide (x ≠ n)) := by
  cases n <;> cases x <;> simp [holdsKind, NoticeKind.bit, NoticeKind.priority]

/-- The first eligible kind is the one with no eligible kind before it (R165). -/
theorem MasterNotices.first_eq_some (q : MasterNotices) (n : NoticeKind) (h : holdsKind q.eligible n = true)
    (hx : ∀ x : NoticeKind, x.priority < n.priority → holdsKind q.eligible x = false) : q.first = some n := by
  unfold MasterNotices.first allKinds
  cases n <;> simp only [NoticeKind.priority] at hx <;>
    simp [h, hx .trip, hx .mechanismFail, hx .lockout, hx .measureLoss, hx .huntOrder, hx .huntEnd,
      hx .posture, hx .blocks, hx .recloseOk, hx .record, hx .settings, hx .linkFault]

/-- With nothing eligible there is no first kind (R166). -/
theorem MasterNotices.first_eq_none (q : MasterNotices) (h : q.eligible = 0) : q.first = none := by
  simp [MasterNotices.first, h, holdsKind]

/-! ## Latching -/

/-- A latch is a change of the notices alone. -/
theorem latch_eq (n : NoticeKind) (m : Master) (p : Part) : latch n m p = { p with notices := (latch n m p).notices } := rfl

/-- The notices of a master after a latch. -/
theorem latch_get (n : NoticeKind) (m x : Master) (p : Part) :
    (latch n m p).notices.get x =
      if x = m then
        { p.notices.get m with
          latched := (p.notices.get m).latched ||| n.bit
          line := ({ p.notices.get m with latched := (p.notices.get m).latched ||| n.bit } : MasterNotices).lineLevel
            (p.showsLine m) }
      else p.notices.get x := by
  simp [latch, setNotices, PerMaster.get_set]

/-- The kinds pending after a latch. -/
theorem latch_pendingFor (n : NoticeKind) (m : Master) (p : Part) (x : Master) (y : NoticeKind) :
    (latch n m p).pendingFor x y = (p.pendingFor x y || (decide (y = n) && decide (x = m))) := by
  unfold Part.pendingFor
  rw [latch_get]
  split
  · subst x; simp [holdsKind_or_bit]
  · simp [*]

/-- A latch leaves the mask, the holdoff and its timer. -/
theorem latch_kept (n : NoticeKind) (m : Master) (p : Part) (x : Master) :
    ((latch n m p).notices.get x).mask = (p.notices.get x).mask ∧
      ((latch n m p).notices.get x).holdoff = (p.notices.get x).holdoff ∧
      ((latch n m p).notices.get x).holdoffTimer = (p.notices.get x).holdoffTimer := by
  rw [latch_get]; split <;> simp [*]

/-- The kinds pending after a raising (R161). -/
theorem raise_pendingFor (n : NoticeKind) (p : Part) (x : Master) (y : NoticeKind) :
    (raise n p).pendingFor x y =
      (p.pendingFor x y || (decide (y = n) && (decide (n ≠ .huntOrder) || decide (x = .control)))) := by
  unfold raise
  split
  · simp [latch_pendingFor]
  · rename_i h
    have h' : n ≠ .huntOrder := h
    simp only [latch_pendingFor]
    cases x <;> simp [h']

/-- A raising is a change of the notices alone. -/
theorem raise_eq (n : NoticeKind) (p : Part) : raise n p = { p with notices := (raise n p).notices } := by
  unfold raise; split <;> rfl

/-- The kinds latched after a raising, as a master's notices hold them (R161). -/
theorem raise_latched (n : NoticeKind) (p : Part) (x : Master) (y : NoticeKind) :
    holdsKind ((raise n p).notices.get x).latched y =
      (holdsKind (p.notices.get x).latched y || (decide (y = n) && (decide (n ≠ .huntOrder) || decide (x = .control)))) :=
  raise_pendingFor n p x y

/-- A raising for a link is a change of the notices alone. -/
theorem raiseLinkFault_eq (k : LinkId) (p : Part) :
    raiseLinkFault k p = { p with notices := (raiseLinkFault k p).notices } := by
  unfold raiseLinkFault; split <;> rfl

/-- The kinds pending after a raising for a link (R161). -/
theorem raiseLinkFault_pendingFor {k : LinkId} {m : Master} {p : Part} (h : (p.links.get k).role = .held m) (x : Master)
    (y : NoticeKind) :
    (raiseLinkFault k p).pendingFor x y = (p.pendingFor x y || (decide (y = .linkFault) && decide (x ≠ m))) := by
  unfold raiseLinkFault
  rw [h]
  cases m <;> simp only [latch_pendingFor] <;> cases x <;> simp

/-! ## Links -/

@[simp] theorem setLink_pendingFor (k : LinkId) (l : Link) (p : Part) (x : Master) (y : NoticeKind) :
    (setLink k l p).pendingFor x y = p.pendingFor x y := rfl

@[simp] theorem setLink_setLink (k : LinkId) (l l' : Link) (p : Part) : setLink k l (setLink k l' p) = setLink k l p := by
  simp [setLink]

/-- The links after the count of a well-formed frame. -/
theorem countGood_links (k : LinkId) (p : Part) :
    (countGood k p).links =
      p.links.set k
        { p.links.get k with
          health := (p.links.get k).health - 1
          faulty := (p.links.get k).faulty && 1 < (p.links.get k).health } := by
  unfold countGood
  dsimp only
  split
  · rename_i hc
    simp only [Bool.and_eq_true, decide_eq_true_eq] at hc
    rw [(raiseLinkFault_frame k _).2.2.2.2.2.2.2.2.2.2.2.2.1, setLink_links]
    congr 1
    simp [hc]
    omega
  · rename_i hc
    simp only [Bool.and_eq_true, decide_eq_true_eq] at hc
    rw [setLink_links]
    congr 1
    cases h : (p.links.get k).faulty <;> simp [h] at hc ⊢
    omega

/-- The links after a reset of a link's health (R184). -/
theorem resetHealth_links (k : LinkId) (p : Part) :
    (resetHealth k p).links = p.links.set k { p.links.get k with health := 0, faulty := false } := by
  unfold resetHealth; dsimp only; split <;> simp <;> congr; simp_all

/-- A link's role shows its master's line (R175). -/
theorem Part.showsLine_of_role {p : Part} {k : LinkId} {m : Master} (h : (p.links.get k).role = .held m)
    (hs : p.started = true) : p.showsLine m = true := by
  cases k <;> simp_all [Part.showsLine, Part.holdsRole, PerLink.get]

/-! ## The list of entries -/

theorem Part.hasBlock_congr {p q : Part} (h : p.entries = q.entries) (k : BlockKind) : p.hasBlock k = q.hasBlock k := by
  simp [Part.hasBlock, h]

/-- A removal by the part takes every entry of the kind (R87). -/
theorem removePart_entries (k : BlockKind) (p : Part) :
    (removePart k p).entries = p.entries.filter (fun e => e.kind ≠ k) := by
  unfold removePart; split
  · simp
  · rename_i h
    simp only [Part.hasBlock, List.any_eq_true, decide_eq_true_eq, not_exists, not_and] at h
    symm
    rw [List.filter_eq_self]
    simpa using h

theorem removePart_hasBlock (k : BlockKind) (p : Part) : (removePart k p).hasBlock k = false := by
  simp [Part.hasBlock, removePart_entries]

theorem removePart_pendingFor (k : BlockKind) (p : Part) (m : Master) (x : NoticeKind) :
    (removePart k p).pendingFor m x = (p.pendingFor m x || (p.hasBlock k && decide (x = .blocks))) := by
  unfold removePart; split
  · rename_i h; rw [raise_pendingFor]; simp [h, Part.pendingFor]
  · rename_i h; simp [h]

theorem placeMechanism_hasBlock (p : Part) : (placeMechanism p).hasBlock .mechanism = true := by
  unfold placeMechanism
  split
  · assumption
  · simp [joinPart, Part.hasBlock]

theorem placeMeasure_hasBlock (p : Part) : (placeMeasure p).hasBlock .measure = true := by
  unfold placeMeasure
  split
  · assumption
  · simp [joinPart, Part.hasBlock]

theorem findEntry_eq_none {l : List BlockEntry} {k : BlockKind} {o : Owner} {r : Byte}
    (h : ∀ e ∈ l, ¬(e.kind = k ∧ e.owner = o ∧ e.reason = r)) : findEntry l k o r = none := by
  unfold findEntry BlockEntry.named
  rw [List.find?_eq_none]
  intro e he
  have := h e he
  simp
  tauto

theorem findEntry_some_of_mem {l : List BlockEntry} {k : BlockKind} {o : Owner} {r : Byte}
    (h : ∃ e ∈ l, e.kind = k ∧ e.owner = o ∧ e.reason = r) :
    ∃ e, findEntry l k o r = some e ∧ e ∈ l ∧ e.kind = k ∧ e.owner = o ∧ e.reason = r := by
  cases hf : findEntry l k o r with
  | none =>
    unfold findEntry at hf
    rw [List.find?_eq_none] at hf
    obtain ⟨e, he, h⟩ := h
    have := hf e he
    simp [BlockEntry.named, h] at this
  | some e =>
    unfold findEntry at hf
    refine ⟨e, rfl, List.mem_of_find?_eq_some hf, ?_⟩
    have := List.find?_some hf
    simpa [BlockEntry.named, and_assoc] using this

/-- An entry found has the three fields it was looked for by. -/
theorem findEntry_named {l : List BlockEntry} {k : BlockKind} {o : Owner} {r : Byte} {e : BlockEntry}
    (h : findEntry l k o r = some e) : e.kind = k ∧ e.owner = o ∧ e.reason = r := by
  unfold findEntry at h
  have := List.find?_some h
  simpa [BlockEntry.named, and_assoc] using this

/-! ## Selection -/

@[simp] theorem Posture.select_select (q : Posture) : q.select.select = q.select := rfl
@[simp] theorem Posture.select_silent (q : Posture) : q.select.silent = q.silent := rfl
@[simp] theorem Posture.select_silenceTimer (q : Posture) : q.select.silenceTimer = q.silenceTimer := rfl
@[simp] theorem Posture.select_groups (q : Posture) : q.select.groups = q.groups := rfl
@[simp] theorem Posture.select_hotLinePresent (q : Posture) : q.select.hotLinePresent = q.hotLinePresent := rfl

/-- A selected group is READY, and no READY group stands between it and the wanted one (R116). -/
theorem selected_group {groups : FourGroups Group} {w g : GroupId} (h : selected groups w = .group g) :
    (groups.get g).state = .ready ∧ GroupId.code w ≤ GroupId.code g ∧
      ∀ x : GroupId, GroupId.code w ≤ GroupId.code x → GroupId.code x < GroupId.code g → (groups.get x).state ≠ .ready := by
  unfold selected climb at h
  cases w <;> simp only [List.find?_cons, List.find?_nil] at h <;> (repeat' split at h) <;>
    (cases h <;> (rename_i h1; (repeat' split at h1)) <;> cases h1) <;> refine ⟨by simp_all, by decide, ?_⟩ <;>
    intro x <;> cases x <;> simp_all [GroupId.code]

/-- With FALLBACK selected, no group from the wanted one upward is READY (R116). -/
theorem selected_fallback {groups : FourGroups Group} {w : GroupId} (h : selected groups w = .fallback) :
    ∀ x : GroupId, GroupId.code w ≤ GroupId.code x → (groups.get x).state ≠ .ready := by
  unfold selected climb at h
  split at h
  · cases h
  · rename_i hx
    intro x hx'
    rw [List.find?_eq_none] at hx
    have := hx x (by cases w <;> cases x <;> simp [GroupId.code] at hx' ⊢)
    simpa using this

/-! ## Deadlines and the Store -/

/-- The earliest of a list of deadlines is one of them, and none is earlier. -/
theorem earliest_eq_some {l : List Deadline} {d : Deadline} (h : earliest l = some d) :
    d ∈ l ∧ ∀ e ∈ l, d.moment ≤ e.moment := by
  induction l generalizing d with
  | nil => simp [earliest] at h
  | cons a l ih =>
    simp only [earliest] at h
    split at h
    · rename_i hn
      cases h
      cases l with
      | nil => simp
      | cons b l =>
        simp only [earliest] at hn
        split at hn
        · cases hn
        · split at hn <;> cases hn
    · rename_i e he
      obtain ⟨h1, h2⟩ := ih he
      split at h <;> cases h
      · refine ⟨by simp, fun x hx => ?_⟩
        rcases List.mem_cons.1 hx with rfl | hx
        · exact le_rfl
        · have := h2 x hx; omega
      · refine ⟨by simp [h1], fun x hx => ?_⟩
        rcases List.mem_cons.1 hx with rfl | hx
        · omega
        · exact h2 x hx

/-- A write of a slot joins the end of the queue (R194). -/
theorem writeSlot_queue (n : SlotId) (x : Option SlotEntry) (k : Option LinkId) (p : Part) :
    (writeSlot (some n) x k p).store.queue = p.store.queue ++ [⟨.slot n x, k⟩] := by
  simp [writeSlot, queueWrite, beginWrite]; split <;> rfl

end Sys2Proof.Machine
end

