-- ==== Sys2Proof/Laws/Orders.lean ====
section
/-! SUPPORT. What orders do: the Sequencer's trips with the breaker CLOSED, the Hunt's switch orders and probes, what its
trips, its test results and its abandonment leave, and when a hunt starts. -/

namespace Sys2Proof.Machine

/-! ## Trips of the Sequencer -/

/-- What a trip with the breaker CLOSED leaves: the blocks that take no part in it, and every notice pending before. -/
def KeptByTrip (p q : Part) : Prop :=
  q.intake = p.intake ∧ q.entries = p.entries ∧ q.posture = p.posture ∧ q.table = p.table ∧ q.hunt = p.hunt ∧
    q.links = p.links ∧ q.store = p.store ∧ q.clock = p.clock ∧
    ∀ (m : Master) (k : NoticeKind), p.pendingFor m k = true → q.pendingFor m k = true

theorem KeptByTrip.refl (p : Part) : KeptByTrip p p := ⟨rfl, rfl, rfl, rfl, rfl, rfl, rfl, rfl, fun _ _ h => h⟩

theorem tripFree_position (p : Part) : (tripFree p).position = p.position := by
  unfold tripFree tripFreeTaken; split <;> rfl

theorem tripAccepted_kept {p q : Part} (last : LastTrip) (f : Option Forced) (h : KeptByTrip p q) :
    KeptByTrip p (tripAccepted last f q) := by
  obtain ⟨h1, h2, h3, h4, h5, h6, h7, h8, h9⟩ := h
  simp only [tripAccepted, enterTripping, noteTrip, writeRecord]
  refine ⟨by simp [h1], by simp [h2], by simp [h3], by simp [h4], by simp [h5], by simp [h6], by simp [h7], by simp [h8],
    fun m k hk => ?_⟩
  have := h9 m k hk
  simp only [Part.pendingFor] at this ⊢
  simp [raise_latched, this]

theorem seqTrip_kept (last : LastTrip) (f : Option Forced) {p : Part} (h : p.position = .closed) :
    KeptByTrip p (seqTrip last f p).1 := by
  have ho : ¬p.position = .opened := by simp [h]
  cases hm : p.mech.order with
  | trip => simp only [seqTrip, placeTrip, hm]; exact .refl p
  | none =>
    have : (seqTrip last f p).1 = tripAccepted last f (beginTrip .sequencer p).1 := by
      simp [seqTrip, placeTrip, hm, beginTrip, ho]
    rw [this]
    apply tripAccepted_kept
    simp only [beginTrip, ho, if_false]
    exact ⟨rfl, rfl, rfl, rfl, rfl, rfl, rfl, rfl, fun _ _ h => h⟩
  | close =>
    have ho' : ¬(tripFree p).position = .opened := by rw [tripFree_position]; exact ho
    have : (seqTrip last f p).1 = tripAccepted last f (beginTrip .sequencer (tripFree p)).1 := by
      simp [seqTrip, placeTrip, hm, beginTrip, ho']
    rw [this]
    apply tripAccepted_kept
    simp only [beginTrip, ho', if_false]
    unfold tripFree tripFreeTaken
    split <;> exact ⟨rfl, rfl, rfl, rfl, rfl, rfl, rfl, rfl, fun _ _ h => h⟩

/-- Intake's request for a trip leaves what a trip leaves (R13, R57). -/
theorem askLossTrip_kept (p : Part) : KeptByTrip p (askLossTrip p) := by
  unfold askLossTrip
  split
  · rename_i h
    simp only [Bool.and_eq_true, decide_eq_true_eq] at h
    unfold seqMeasureLoss
    split
    · exact seqTrip_kept _ _ h.2
    · exact seqTrip_kept _ _ h.2
    · exact ⟨rfl, rfl, rfl, rfl, rfl, rfl, rfl, rfl, fun _ _ h => h⟩
    · split
      · exact seqTrip_kept _ _ h.2
      · exact .refl p
    · exact .refl p
  · exact .refl p

/-! ## Switch orders and probes -/

/-- Every switch below a position is believed CLOSED. -/
theorem Part.lowestNotClosed_eq_none {p : Part} {m : Nat} (h : ∀ i, 1 ≤ i → i < m → p.believed i = .closed) :
    p.lowestNotClosed (m - 1) = none := by
  simp only [Part.lowestNotClosed, List.find?_eq_none]
  intro x hx
  rw [List.mem_range'_1] at hx
  simp [h x (by omega) (by omega)]

/-- The lowest position that is not believed CLOSED. -/
theorem Part.lowestNotClosed_eq_some {p : Part} {m j : Nat} (h1 : 1 ≤ j) (h2 : j < m)
    (h : ∀ i, 1 ≤ i → i < j → p.believed i = .closed) (hj : p.believed j ≠ .closed) :
    p.lowestNotClosed (m - 1) = some j := by
  have hr : List.range' 1 (m - 1) = List.range' 1 (j - 1) ++ (j :: List.range' (j + 1) (m - 1 - j)) := by
    rw [← List.range'_succ (s := j) (n := m - 1 - j) (step := 1)]
    have := List.range'_append (s := 1) (m := j - 1) (n := m - 1 - j + 1) (step := 1)
    rw [show 1 + 1 * (j - 1) = j from by omega, show j - 1 + (m - 1 - j + 1) = m - 1 from by omega] at this
    exact this.symm
  have h0 : (List.range' 1 (j - 1)).find? (fun i => decide (p.believed i ≠ .closed)) = none := by
    rw [List.find?_eq_none]
    intro x hx
    rw [List.mem_range'_1] at hx
    simp [h x (by omega) (by omega)]
  simp only [Part.lowestNotClosed, hr, List.find?_append, h0]
  simp [hj]

/-- A switch order that can be issued is issued (R132). -/
theorem issueOrder_eq {p : Part} {j : Nat} (a : SwitchAction) (h1 : p.position = .opened)
    (h2 : (p.table.switch j).operable = true) :
    issueOrder j a p =
      raise .huntOrder
        { p with
          hunt :=
            { p.hunt with
              outstanding := some ⟨p.hunt.nextOrder, j, (p.table.switch j).ident.getD 0, a⟩
              nextOrder := p.hunt.nextOrder + 1
              ordersIssued := min (p.hunt.ordersIssued + 1) 255
              orderTimer := some (p.clock + p.table.timeout.getD 0 * 1000) } } := by
  unfold issueOrder; simp [h1, h2, Part.timer]

/-- The best probe of a rising list has the smallest score, and is the lower on a tie (R131). -/
theorem bestProbe_spec (lo hi : Nat) (l : List Nat) (hs : l.Pairwise (· < ·)) :
    (bestProbe lo hi l = none ↔ l = []) ∧
      ∀ m, bestProbe lo hi l = some m → m ∈ l ∧
        ∀ j ∈ l, probeScore lo hi m < probeScore lo hi j ∨ (probeScore lo hi m = probeScore lo hi j ∧ m ≤ j) := by
  induction l with
  | nil => simp [bestProbe]
  | cons a l ih =>
    rw [List.pairwise_cons] at hs
    obtain ⟨ih1, ih2⟩ := ih hs.2
    constructor
    · simp only [bestProbe]; split <;> (try split) <;> simp
    · intro m hm
      simp only [bestProbe] at hm
      split at hm
      · rename_i h; have := ih1.1 h; subst this; cases hm; simp
      · rename_i e he
        obtain ⟨h1, h2⟩ := ih2 e he
        split at hm <;> cases hm
        · refine ⟨by simp, fun j hj => ?_⟩
          rcases List.mem_cons.1 hj with rfl | hj
          · omega
          · have := hs.1 j hj; have := h2 j hj; omega
        · refine ⟨by simp [h1], fun j hj => ?_⟩
          rcases List.mem_cons.1 hj with rfl | hj
          · omega
          · exact h2 j hj

/-! ## Abandonment -/

/-- Items 1 to 4 of an abandonment (R146, R148). -/
theorem abandonStart_spec (reason : HuntReason) (detail : Option HuntDetail) (p : Part) :
    let q := abandonStart reason detail p
    q.hunt =
        { p.hunt with
          outstanding := none, orderTimer := none, closeWaitTimer := none, closeDue := .none, state := .abandoned
          result := some
            { outcome := .abandoned, reason := reason, detail := detail, startedBy := p.hunt.startedBy, lo := p.hunt.lo
              hi := p.hunt.hi, testsUsed := p.hunt.testsUsed, testLimit := p.hunt.testLimit.getD 0
              ordersIssued := p.hunt.ordersIssued, unusable := p.hunt.unusable } } ∧
      q.hasBlock .hunt = false ∧ (∀ m : Master, q.pendingFor m .huntEnd = true) ∧
      q = { p with hunt := q.hunt, entries := q.entries, notices := q.notices } := by
  refine ⟨by simp [abandonStart, writeResult], ?_, fun m => ?_, ?_⟩
  · simp [abandonStart, Part.hasBlock, removePart_entries]
  · simp [abandonStart, raise_pendingFor]
  · unfold abandonStart removePart
    split
    · rw [raise_eq .huntEnd, raise_eq .blocks]; rfl
    · rw [raise_eq .huntEnd]; rfl

/-- With the breaker OPEN and no order in progress an abandonment hands the breaker back in LOCKOUT (R146 item 6, R76). -/
theorem abandon_of_opened {reason : HuntReason} {detail : Option HuntDetail} {c : TripCall} {p : Part}
    (h1 : p.position = .opened) (h2 : p.mech.order = .none) :
    abandon reason detail c p = handBack .lockout (abandonStart reason detail p) := by
  have h1' : p.mech.position = .opened := h1
  unfold abandon
  simp [Part.position, h1', h2]

/-! ## Trips of the Hunt -/

/-- What a trip of the Hunt's leaves, with the breaker not OPEN and no order in progress but perhaps its own close, which it
ends trip-free (R143, R47, R51). -/
structure PlacedByHunt (c : TripCall) (p : Part) (f : FaultRecord) (q : Part) : Prop where
  mech : q.mech =
    { p.mech with
      order := .trip, placer := some .hunt, orderTimer := some (p.clock + 200), tripOutput := true
      closeOutput := decide (p.mech.order ≠ .close) && p.mech.closeOutput, travelTimer := none }
  records : q.records =
    { ring := (f :: p.records.ring).take 16, next := nextNumber p.records.next, pendingRecord := some p.records.next }
  elements : q.elements =
    { p.elements with
      episode := none
      closeKind := if p.mech.order = .close then .none else p.elements.closeKind
      mode := if p.mech.order = .close then .normal else p.elements.mode }
  record : f.number = p.records.next ∧ f.origin = .hunt ∧ f.causes = c.causes ∧ f.requester = c.requester ∧
    f.highsetLanes = c.highsetLanes ∧ f.sotfLanes = c.sotfLanes ∧ f.shot = 0 ∧ f.outcome = .pending ∧
    f.active = p.posture.active ∧ f.level = p.posture.level
  raised : ∀ m : Master, q.pendingFor m .trip = true ∧ q.pendingFor m .record = true
  latched : ∀ (m : Master) (k : NoticeKind), p.pendingFor m k = true → q.pendingFor m k = true
  rest : q = { p with mech := q.mech, records := q.records, elements := q.elements, notices := q.notices }

theorem huntTrip_of_none (c : TripCall) {p : Part} (h1 : p.position ≠ .opened) (h2 : p.mech.order = .none) :
    ∃ (f : FaultRecord) (q : Part), huntTrip c p = (q, .accepted) ∧ PlacedByHunt c p f q := by
  refine ⟨p.newRecord ⟨.hunt, c.causes, c.requester, c.highsetLanes, c.sotfLanes, 0⟩, (huntTrip c p).1, ?_, ?_⟩ <;>
    unfold huntTrip placeTrip <;> simp only [h2, beginTrip, if_neg h1]
  constructor
  · simp [writeRecord, h2, Part.timer]
  · simp [writeRecord, ringSize, Part.newRecord, Part.uptime]
  · simp [writeRecord, h2]
  · exact ⟨rfl, rfl, rfl, rfl, rfl, rfl, rfl, rfl, rfl, rfl⟩
  · intro m; simp [writeRecord, Part.pendingFor, raise_latched]
  · intro m k hk
    simp only [Part.pendingFor] at hk ⊢
    simp [writeRecord, raise_latched, hk]
  · simp only [reduceCtorEq, if_false]
    rw [raise_eq, writeRecord, raise_eq .record]

/-- A trip of the Hunt's is accepted, and leaves what `PlacedByHunt` says. -/
theorem huntTrip_placed (c : TripCall) {p : Part} (h1 : p.position ≠ .opened)
    (h2 : p.mech.order = .none ∨ (p.mech.order = .close ∧ p.mech.placer = some .hunt)) :
    ∃ (f : FaultRecord) (q : Part), huntTrip c p = (q, .accepted) ∧ PlacedByHunt c p f q := by
  rcases h2 with h2 | ⟨h2, h3⟩
  · exact huntTrip_of_none c h1 h2
  · have hf : tripFree p = closeEnded (endOrder p) := by simp [tripFree, h3, tripFreeTaken]
    have e : huntTrip c p = huntTrip c (closeEnded (endOrder p)) := by
      have : (closeEnded (endOrder p)).mech.order = .none := rfl
      unfold huntTrip placeTrip
      simp only [h2, this, hf]
    obtain ⟨f, q, hq, h⟩ := huntTrip_of_none c (p := closeEnded (endOrder p)) h1 rfl
    refine ⟨f, q, e.trans hq, ?_⟩
    constructor
    · rw [h.mech]; simp [h2, closeEnded, endOrder]
    · rw [h.records]; rfl
    · rw [h.elements]; simp [h2, closeEnded, endOrder]
    · exact h.record
    · exact h.raised
    · exact h.latched
    · exact h.rest

/-- A test result taken with the breaker not OPEN applies it to the range and places the Hunt's trip (R141). -/
theorem testResult_placed (r : TestResult) (c : TripCall) {p : Part} (h1 : p.position ≠ .opened)
    (h2 : p.mech.order = .none ∨ (p.mech.order = .close ∧ p.mech.placer = some .hunt)) :
    ∃ f : FaultRecord,
      PlacedByHunt c { p with hunt := applyResult (takenResult p.hunt.doubtfulSeen r) p.hunt } f (testResult r c p) := by
  obtain ⟨f, q, hq, h⟩ := huntTrip_placed c (p := { p with
    hunt := applyResult (takenResult p.hunt.doubtfulSeen r) p.hunt }) h1 h2
  exact ⟨f, by unfold testResult; simp only [hq]; exact h⟩

/-! ## The start of a hunt -/

/-- Every condition of R128 is met. -/
theorem startRefusal_eq_none (q : Part) : startRefusal q = none ↔
    q.seq.state = .lockout ∧ q.hunt.state.running = false ∧ q.table.state = .ready ∧
      (∀ j : Nat, 1 ≤ j → j ≤ q.table.n.getD 0 → q.believed j = .closed) ∧ q.hasBlock .hotLine = false ∧
      q.hasBlock .mechanism = false ∧ q.hasBlock .measure = false ∧ q.posture.level ≠ .ban ∧
      q.posture.silent = false ∧ q.mech.energyHigh = true := by
  have hall : (q.table.positions.all fun k => decide (q.believed k = .closed)) = true ↔
      ∀ j : Nat, 1 ≤ j → j ≤ q.table.n.getD 0 → q.believed j = .closed := by
    simp only [SectionTable.positions, List.all_eq_true, decide_eq_true_eq, List.mem_range'_1]
    exact ⟨fun h j j1 j2 => h j ⟨j1, by omega⟩, fun h j j1 => h j j1.1 (by omega)⟩
  rw [← hall]
  unfold startRefusal
  generalize (q.table.positions.all fun k => decide (q.believed k = .closed)) = b
  by_cases a1 : q.seq.state = .lockout
  swap; · simp [a1]
  cases a2 : q.hunt.state.running
  swap; · simp [a1]
  by_cases a3 : q.table.state = .ready
  swap; · simp [a1, a3]
  cases b
  · simp [a1, a3]
  cases a4 : q.hasBlock .hotLine
  swap; · simp [a1, a3]
  cases a5 : q.hasBlock .mechanism
  swap; · simp [a1, a3]
  cases a6 : q.hasBlock .measure
  swap; · simp [a1, a3]
  by_cases a7 : q.posture.level = .ban
  · simp [a1, a3, a7]
  cases a8 : q.posture.silent
  swap; · simp [a1, a3, a7]
  cases a9 : q.mech.energyHigh <;> simp [a1, a3, a7]

end Sys2Proof.Machine
end

