-- ==== Sys2Proof/Laws/Hunt.lean ====
section
/-! SUPPORT. What becomes of a hunt: the lemmas that say once what an abandonment, a MECHANISM placement, a hand-back, a
conclusion, a close due, a switch order, a probe's derivation, a restoration step and a plan each do, in the words of
Safety.lean. -/

namespace Sys2Proof.Machine

/-! ## Notices raised since -/

/-- A part with at most the notices of another. -/
theorem RaisedSince.mono {p p' q : Part} {l : List NoticeKind} (h : RaisedSince p q l)
    (hp : ∀ (m : Master) (k : NoticeKind), p'.pendingFor m k = true → p.pendingFor m k = true) : RaisedSince p' q l :=
  ⟨h.1, fun m k hk => h.2 m k (hp m k hk)⟩

/-- Raising a kind that every master receives. -/
theorem raise_pending {k : NoticeKind} (h : k ≠ .huntOrder) (p : Part) (m : Master) :
    (raise k p).pendingFor m k = true := by
  rw [raise_pendingFor]; simp [h]

/-- Raising keeps what is pending. -/
theorem raise_kept (k : NoticeKind) (p : Part) (m : Master) (x : NoticeKind) (h : p.pendingFor m x = true) :
    (raise k p).pendingFor m x = true := by
  rw [raise_pendingFor]; simp [h]

/-- One more kind raised. -/
theorem RaisedSince.raise {p q : Part} {l : List NoticeKind} {k : NoticeKind} (h : RaisedSince p q l)
    (hk : k ≠ .huntOrder) :
    RaisedSince p (raise k q) (k :: l) := by
  refine ⟨fun x hx m => ?_, fun m x hx => raise_kept _ _ _ _ (h.2 m x hx)⟩
  rcases List.mem_cons.1 hx with rfl | hx
  · exact raise_pending hk q m
  · exact raise_kept _ _ _ _ (h.1 x hx m)

/-- A part with at least the notices of another. -/
theorem RaisedSince.of {p q r : Part} {l : List NoticeKind} (h : RaisedSince p q l)
    (hn : ∀ (m : Master) (k : NoticeKind), q.pendingFor m k = true → r.pendingFor m k = true) : RaisedSince p r l :=
  ⟨fun k hk m => hn _ _ (h.1 k hk m), fun m k hk => hn _ _ (h.2 m k hk)⟩

/-- Fewer kinds named. -/
theorem RaisedSince.sub {p q : Part} {l l' : List NoticeKind} (h : RaisedSince p q l) (hs : ∀ k ∈ l', k ∈ l) :
    RaisedSince p q l' :=
  ⟨fun k hk m => h.1 k (hs k hk) m, h.2⟩

/-- What is pending is read from the notices. -/
theorem pendingFor_congr {p q : Part} (h : p.notices = q.notices) (m : Master) (k : NoticeKind) :
    p.pendingFor m k = q.pendingFor m k := by simp [Part.pendingFor, h]

/-! ## Abandonment and hand-back -/

/-- Items 1 to 4 of an abandonment leave its hunt, its list and HUNT_END (R146). -/
theorem abandonStart_left (reason : HuntReason) (detail : Option HuntDetail) (p : Part) :
    abandonStart reason detail p =
        { p with
          hunt := p.hunt.abandonedBy reason detail p.hunt.handBackPending, entries := p.entriesLeft
          notices := (abandonStart reason detail p).notices } ∧
      RaisedSince p (abandonStart reason detail p) [.huntEnd] := by
  obtain ⟨h1, -, h3, h4⟩ := abandonStart_spec reason detail p
  have he : (abandonStart reason detail p).entries = p.entriesLeft := by
    simp [abandonStart, removePart_entries, writeResult, Part.entriesLeft]
  refine ⟨?_, fun k hk m => ?_, fun m k hk => ?_⟩
  · rw [h4, h1, he]; rfl
  · simp only [List.mem_singleton] at hk; subst hk; exact h3 m
  · unfold abandonStart
    apply raise_kept
    rw [removePart_pendingFor]
    simp only [Part.pendingFor, writeResult] at hk ⊢
    simp [hk]

/-- A block that leaves the list raises BLOCKS (R87). -/
theorem removePart_blocks {k : BlockKind} {p : Part} (h : p.hasBlock k = true) (m : Master) :
    (removePart k p).pendingFor m .blocks = true := by
  unfold removePart
  rw [if_pos h]
  exact raise_pending (by simp) _ m

/-- A trip placed raises RECORD and TRIP (R143, R153). -/
theorem tripRaised (g : TripFields) (p : Part) : RaisedSince p (raise .trip (writeRecord g p)) [.trip, .record] := by
  have h : RaisedSince p (writeRecord g p) [.record] := by
    unfold writeRecord
    exact (RaisedSince.raise (l := []) ⟨fun k hk => absurd hk (by simp), fun _ _ => id⟩ (k := .record) (by simp))
  exact h.raise (by simp)

/-- A hand-back keeps what is pending. -/
theorem handBack_kept (n : HandBack) (p : Part) (m : Master) (k : NoticeKind) (h : p.pendingFor m k = true) :
    (handBack n p).pendingFor m k = true := by
  unfold handBack seqHandBack
  split
  · exact h
  · split
    · exact h
    · exact raise_kept _ _ _ _ h

/-- A trip of the Hunt's keeps what is pending. -/
theorem huntTrip_kept (c : TripCall) (p : Part) (m : Master) (k : NoticeKind) (h : p.pendingFor m k = true) :
    (huntTrip c p).1.pendingFor m k = true := by
  have hn : (placeTrip .hunt p).1.notices = p.notices := by
    unfold placeTrip beginTrip tripFree tripFreeTaken
    (repeat' split) <;> rfl
  have h' : (placeTrip .hunt p).1.pendingFor m k = true := (pendingFor_congr hn m k).trans h
  have hr : ∀ (g : TripFields) (q : Part), q.pendingFor m k = true →
      (raise .trip (writeRecord g q)).pendingFor m k = true := fun g q hq => (tripRaised g q).2 m k hq
  unfold huntTrip
  split
  · rename_i q hq; rw [hq] at h'; exact h'
  · rename_i q a _ hq
    rw [hq] at h'
    dsimp only
    split
    · have : ∀ x : Part, (completeRecord .opened x).notices = x.notices := by
        intro x; unfold completeRecord; split <;> rfl
      exact (pendingFor_congr (this _) m k).trans (hr _ _ h')
    · exact hr _ _ h'

/-- An abandonment keeps what its first items have raised. -/
theorem abandon_kept (reason : HuntReason) (detail : Option HuntDetail) (c : TripCall) (p : Part) (m : Master)
    (k : NoticeKind) (h : (abandonStart reason detail p).pendingFor m k = true) :
    (abandon reason detail c p).pendingFor m k = true := by
  have hd : ∀ x : Part, x.pendingFor m k = true → (handBackPendingDone x).pendingFor m k = true := by
    intro x hx
    unfold handBackPendingDone
    split
    · exact handBack_kept _ _ m k hx
    · exact hx
  have ht : ∀ x : Part, x.pendingFor m k = true → (abandonTrip c x).pendingFor m k = true := by
    intro x hx
    have := huntTrip_kept c { x with hunt := { x.hunt with handBackPending := true } } m k hx
    unfold abandonTrip
    split
    · rename_i q hq; rw [hq] at this; exact hd q this
    · rename_i q _ _ hq; rw [hq] at this; exact this
  unfold abandon
  dsimp only
  split
  · exact handBack_kept _ _ m k h
  · split
    · exact handBack_kept _ _ m k h
    · exact ht _ h

/-- An abandonment raises BLOCKS as HUNT leaves the list (R146 item 3, R87). -/
theorem abandon_blocks (reason : HuntReason) (detail : Option HuntDetail) (c : TripCall) {p : Part}
    (h : p.hasBlock .hunt = true) (m : Master) : (abandon reason detail c p).pendingFor m .blocks = true := by
  apply abandon_kept
  unfold abandonStart
  exact raise_kept _ _ _ _ (removePart_blocks (by exact h) m)

/-- The breaker handed back in LOCKOUT with no failure noted (R76, R60, R33). -/
theorem handBack_lockout {p : Part} (h : p.seq.failureNoted = false) :
    handBack .lockout p =
      raise .lockout
        { p with elements := { p.elements with mode := .normal }, seq := p.seq.lockedOut .huntEnd } := by
  simp [handBack, seqHandBack, elementsHandBack, h, enterLockout, Sequencer.lockedOut, Sequencer.rests]

/-- The breaker handed back in CLOSED with no failure noted (R76). -/
theorem handBack_closed {p : Part} (h : p.seq.failureNoted = false) :
    handBack .closed p =
      { p with elements := { p.elements with mode := .normal }, seq := { p.seq.rests .closed with shotsUsed := 0 } } := by
  simp [handBack, seqHandBack, elementsHandBack, h, enterClosed, Sequencer.rests]

/-- With a failure noted the breaker is handed back in FAILED, whatever is named (R76). -/
theorem handBack_failed {p : Part} (n : HandBack) (h : p.seq.failureNoted = true) :
    handBack n p =
      { p with elements := { p.elements with mode := .normal }, seq := p.seq.rests .failed } := by
  simp [handBack, seqHandBack, elementsHandBack, h, enterFailed, Sequencer.rests]

/-- The same notices. -/
theorem RaisedSince.congr {p q r : Part} {l : List NoticeKind} (h : RaisedSince p q l) (hn : q.notices = r.notices) :
    RaisedSince p r l := h.of fun m k hk => (pendingFor_congr hn m k).symm.trans hk

/-- A trip of the Hunt's with the breaker OPEN and no order in progress is OPENED at once (R143, R47, R48, R156). -/
theorem huntTrip_opened_of_none (c : TripCall) {p : Part} (h1 : p.position = .opened) (h2 : p.mech.order = .none) :
    ∃ (f : FaultRecord) (N : PerMaster MasterNotices),
      huntTrip c p =
        ({ p with
            elements := { p.elements with episode := none }
            records :=
              { ring :=
                  ((f :: p.records.ring).take 16).map fun r =>
                    if r.number = f.number then { r with outcome := .opened } else r
                next := nextNumber p.records.next, pendingRecord := none }
            notices := N }, .alreadyOpen) ∧
      f = p.newRecord ⟨.hunt, c.causes, c.requester, c.highsetLanes, c.sotfLanes, 0⟩ ∧
      RaisedSince p { p with notices := N } [.trip, .record] := by
  generalize hg : (⟨.hunt, c.causes, c.requester, c.highsetLanes, c.sotfLanes, 0⟩ : TripFields) = g
  refine ⟨p.newRecord g, (raise .trip (writeRecord g p)).notices, ?_, rfl, ?_⟩
  · unfold huntTrip placeTrip
    simp only [h2, beginTrip, if_pos h1, if_true, hg]
    refine Prod.ext ?_ rfl
    unfold completeRecord
    simp only [raise_frame]
    rw [raise_eq .trip (writeRecord g p)]
    unfold writeRecord
    have hn : (p.newRecord g).number = p.records.next := rfl
    simp only [raise_frame, ringSize, hn]
  · exact (tripRaised g p).congr rfl

/-- A trip of the Hunt's with the breaker OPEN is OPENED at once; its own close, in progress, ends trip-free (R143, R47, R48,
R51, R156). -/
theorem huntTrip_opened (causes : Causes) (requester : Option Master) {p : Part} (h1 : p.position = .opened)
    (h2 : p.mech.order = .close) (h3 : p.mech.placer = some .hunt) :
    ∃ (f : FaultRecord) (N : PerMaster MasterNotices),
      huntTrip ⟨causes, requester, noPhases, noLanes⟩ p =
        ({ p with
            mech :=
              { p.mech with
                order := .none, placer := none, orderTimer := none, tripOutput := false, closeOutput := false }
            elements := { p.elements with episode := none, closeKind := .none, mode := .normal }
            records :=
              { ring :=
                  ((f :: p.records.ring).take 16).map fun r =>
                    if r.number = f.number then { r with outcome := .opened } else r
                next := nextNumber p.records.next, pendingRecord := none }
            notices := N }, .alreadyOpen) ∧
      HuntRecord p causes requester f ∧ f.outcome = .pending ∧
        RaisedSince p { p with notices := N } [.trip, .record] := by
  have bp : (closeEnded (endOrder p)).position = .opened := h1
  have e : huntTrip ⟨causes, requester, noPhases, noLanes⟩ p =
      huntTrip ⟨causes, requester, noPhases, noLanes⟩ (closeEnded (endOrder p)) := by
    have hf : tripFree p = closeEnded (endOrder p) := by simp only [tripFree, h3, tripFreeTaken]
    have : (closeEnded (endOrder p)).mech.order = .none := rfl
    unfold huntTrip placeTrip
    simp only [h2, this, hf]
  obtain ⟨f, N, hm, hf, hs⟩ := huntTrip_opened_of_none ⟨causes, requester, noPhases, noLanes⟩ bp rfl
  refine ⟨f, N, ?_, ?_, ?_, hs⟩
  · rw [e, hm]
    simp [closeEnded, endOrder, h1]
  · rw [hf]; exact ⟨rfl, rfl, rfl, rfl, ⟨rfl, rfl⟩, rfl, rfl, rfl⟩
  · rw [hf]; rfl

/-- An abandonment with the breaker not OPEN places the Hunt's trip for whatever called for it, with hand-back pending (R143,
R146 item 7). -/
theorem abandon_placed {reason : HuntReason} (detail : Option HuntDetail) (c : TripCall) {p : Part}
    (h0 : reason ≠ .mechanism) (h1 : p.position ≠ .opened)
    (h2 : p.mech.order = .none ∨ (p.mech.order = .close ∧ p.mech.placer = some .hunt)) :
    ∃ (N : PerMaster MasterNotices) (f : FaultRecord),
      PlacedByHunt c
        { p with hunt := p.hunt.abandonedBy reason detail true, entries := p.entriesLeft, notices := N }
        f (abandon reason detail c p) ∧
      RaisedSince p (abandon reason detail c p) [.huntEnd] := by
  obtain ⟨e, hr⟩ := abandonStart_left reason detail p
  generalize (abandonStart reason detail p).notices = N at e
  rw [e] at hr
  obtain ⟨f, q, hq, h⟩ := huntTrip_placed c (p := { p with
    hunt := p.hunt.abandonedBy reason detail true, entries := p.entriesLeft, notices := N }) h1 h2
  have hq' : huntTrip c { p with
      hunt := { p.hunt.abandonedBy reason detail p.hunt.handBackPending with handBackPending := true }
      entries := p.entriesLeft, notices := N } = _ := hq
  have ha : abandon reason detail c p = q := by
    unfold abandon
    simp only [if_neg h0, e]
    rw [if_neg]
    · unfold abandonTrip; simp only [hq']
    · intro h'
      rw [Bool.and_eq_true, decide_eq_true_eq] at h'
      exact h1 h'.1
  rw [ha]
  exact ⟨N, f, h, fun k hk m => h.latched m _ (hr.1 k hk m), fun m k hk => h.latched m k (hr.2 m k hk)⟩

/-- What an abandonment does, for any reason but MECHANISM (R145, R146, R147). -/
theorem abandon_spec {reason : HuntReason} (detail : Option HuntDetail) (causes : Causes) (requester : Option Master)
    {p : Part} (h0 : reason ≠ .mechanism) (h1 : p.seq.failureNoted = false)
    (h2 : p.mech.order = .close → p.mech.placer = some .hunt) :
    HuntAbandoned reason detail causes requester p
      (abandon reason detail ⟨causes, requester, noPhases, noLanes⟩ p) := by
  obtain ⟨e, hr⟩ := abandonStart_left reason detail p
  generalize (abandonStart reason detail p).notices = N at e
  rw [e] at hr
  have hab : ¬(p.position = .opened ∧ ¬p.mech.order = .close) →
      abandon reason detail ⟨causes, requester, noPhases, noLanes⟩ p =
        abandonTrip ⟨causes, requester, noPhases, noLanes⟩
          { p with
            hunt := p.hunt.abandonedBy reason detail p.hunt.handBackPending, entries := p.entriesLeft, notices := N } := by
    intro h
    unfold abandon
    simp only [if_neg h0, e]
    rw [if_neg]
    intro h'
    apply h
    rw [Bool.and_eq_true, decide_eq_true_eq] at h'
    refine ⟨h'.1, fun o2 => ?_⟩
    have := h'.2
    simp [o2, h2 o2] at this
  constructor
  · intro o1 o2
    have : abandon reason detail ⟨causes, requester, noPhases, noLanes⟩ p = handBack .lockout
        { p with
          hunt := p.hunt.abandonedBy reason detail p.hunt.handBackPending, entries := p.entriesLeft, notices := N } := by
      unfold abandon
      simp only [if_neg h0, e]
      rw [if_pos]
      rw [Bool.and_eq_true, decide_eq_true_eq]
      exact ⟨o1, by simp [o2]⟩
    rw [this, handBack_lockout (by exact h1)]
    exact ⟨raise_eq .lockout _, ((hr.of (fun _ _ => id)).raise (k := .lockout) (by simp)).sub (by simp)⟩
  · intro o1 o2
    obtain ⟨f, M, hm, hf, hp, hs⟩ := huntTrip_opened causes requester (p := { p with
        hunt := p.hunt.abandonedBy reason detail true, entries := p.entriesLeft, notices := N }) o1 o2 (h2 o2)
    rw [hab (by simp [o2])]
    unfold abandonTrip
    have hm' : huntTrip ⟨causes, requester, noPhases, noLanes⟩ { p with
        hunt := { p.hunt.abandonedBy reason detail p.hunt.handBackPending with handBackPending := true }
        entries := p.entriesLeft, notices := N } = _ := hm
    simp only [hm', handBackPendingDone]
    rw [if_pos (by rfl), handBack_lockout (by exact h1)]
    refine ⟨raise_eq .lockout _, ⟨f, ⟨hf.1, hf.2, hf.3, hf.4, hf.5, hf.6, hf.7⟩, hp, by rw [raise_eq]⟩, ?_⟩
    refine (RaisedSince.raise (l := [.huntEnd, .trip, .record]) ⟨fun k hk m => ?_, fun m k hk => ?_⟩ (k := .lockout)
      (by simp)).sub (by simp)
    · rcases List.mem_cons.1 hk with rfl | hk
      · exact hs.2 m _ (hr.1 _ (by simp) m)
      · exact hs.1 k hk m
    · exact hs.2 m k (hr.2 m k hk)
  · intro o1 o2
    have o3 : p.mech.order = .none ∨ (p.mech.order = .close ∧ p.mech.placer = some .hunt) := by
      cases hq : p.mech.order
      · exact .inl rfl
      · exact absurd hq o2
      · exact .inr ⟨rfl, h2 hq⟩
    obtain ⟨f, q, hq, h⟩ := huntTrip_placed ⟨causes, requester, noPhases, noLanes⟩ (p := { p with
        hunt := p.hunt.abandonedBy reason detail true, entries := p.entriesLeft, notices := N }) o1 o3
    rw [hab (by simp [o1])]
    have hq' : huntTrip ⟨causes, requester, noPhases, noLanes⟩ { p with
        hunt := { p.hunt.abandonedBy reason detail p.hunt.handBackPending with handBackPending := true }
        entries := p.entriesLeft, notices := N } = _ := hq
    unfold abandonTrip
    simp only [hq']
    obtain ⟨r1, r2, r3, r4, r5, r6, r7, r8, r9, r10⟩ := h.record
    refine ⟨?_, ⟨f, ⟨r1, r2, r3, r4, ⟨r5, r6⟩, r7, r9, r10⟩, r8, h.records⟩, fun k hk m => ?_, fun m k hk => ?_⟩
    · have := h.rest
      rw [h.mech, h.elements] at this
      exact this
    · simp only [List.mem_cons, List.not_mem_nil, or_false] at hk
      rcases hk with rfl | rfl | rfl
      · exact h.latched m _ (hr.1 _ (by simp) m)
      · exact (h.raised m).1
      · exact (h.raised m).2
    · exact h.latched m k (hr.2 m k hk)
  · intro o1 o2
    rw [hab (by simp [o1])]
    have hq : huntTrip ⟨causes, requester, noPhases, noLanes⟩ { p with
        hunt := { p.hunt.abandonedBy reason detail p.hunt.handBackPending with handBackPending := true }
        entries := p.entriesLeft, notices := N } = ({ p with
        hunt := p.hunt.abandonedBy reason detail true, entries := p.entriesLeft, notices := N }, .inProgress) := by
      unfold huntTrip placeTrip
      simp only [o2]
      rfl
    unfold abandonTrip
    simp only [hq]
    exact ⟨trivial, hr⟩
  · exact fun hb => abandon_blocks _ _ _ hb

/-- A MECHANISM placement while a hunt runs abandons it, and hands the breaker back in FAILED (R146 item 5). -/
theorem placeMechanism_running {p : Part} (h1 : p.seq.state = .huntHeld) (h2 : p.hunt.state.running = true)
    (h3 : p.hasBlock .mechanism = false) :
    HandedToFailure (p.hunt.abandonedBy .mechanism none p.hunt.handBackPending) p (placeMechanism p) ∧
      ∀ m : Master, (placeMechanism p).pendingFor m .huntEnd = true := by
  have e1 : seqBlockPlaced .mechanism p = { p with seq := { p.seq with failureNoted := true } } := by
    simp [seqBlockPlaced, h1]
  obtain ⟨e, hr⟩ := abandonStart_left .mechanism none { p with seq := { p.seq with failureNoted := true } }
  generalize (abandonStart .mechanism none { p with seq := { p.seq with failureNoted := true } }).notices = N at e
  rw [e] at hr
  have e2 : placeMechanism p = raise .blocks
      { p with
        hunt := p.hunt.abandonedBy .mechanism none p.hunt.handBackPending
        entries := p.entriesLeft ++ [⟨.mechanism, .part, 0, p.uptime, none, none, none⟩]
        elements := { p.elements with mode := .normal }
        seq := { p.seq.rests .failed with failureNoted := true }
        notices := N } := by
    unfold placeMechanism
    rw [if_neg (by simp [h3]), e1]
    unfold huntMechanismPlaced
    rw [if_pos (by exact h2)]
    unfold abandon
    rw [if_pos rfl, e, handBack_failed _ (by rfl)]
    rfl
  have hb : RaisedSince p (placeMechanism p) [.blocks, .huntEnd] := by
    rw [e2]
    exact RaisedSince.raise (hr.congr rfl) (by simp)
  refine ⟨⟨?_, hb.sub (by simp)⟩, hb.1 _ (by simp)⟩
  rw [e2]; exact raise_eq .blocks _

/-- A MECHANISM placement while the hand-back is pending hands the breaker back in FAILED (R147). -/
theorem placeMechanism_pending {p : Part} (h1 : p.seq.state = .huntHeld) (h2 : p.hunt.state.running = false)
    (h3 : p.hasBlock .mechanism = false) (h4 : p.hunt.handBackPending = true) (h5 : p.hasBlock .hunt = false) :
    HandedToFailure { p.hunt with handBackPending := false } p (placeMechanism p) := by
  have e1 : seqBlockPlaced .mechanism p = { p with seq := { p.seq with failureNoted := true } } := by
    simp [seqBlockPlaced, h1]
  have h6 : p.entriesLeft = p.entries := by
    unfold Part.entriesLeft
    rw [List.filter_eq_self]
    simpa [Part.hasBlock] using h5
  have e2 : placeMechanism p = raise .blocks
      { p with
        hunt := { p.hunt with handBackPending := false }
        entries := p.entriesLeft ++ [⟨.mechanism, .part, 0, p.uptime, none, none, none⟩]
        elements := { p.elements with mode := .normal }
        seq := { p.seq.rests .failed with failureNoted := true } } := by
    unfold placeMechanism
    rw [if_neg (by simp [h3]), e1, h6]
    unfold huntMechanismPlaced
    rw [if_neg (by simp [h2])]
    unfold handBackPendingDone
    rw [if_pos (by exact h4), handBack_failed _ (by rfl)]
    rfl
  refine ⟨?_, ?_⟩
  · rw [e2]; exact raise_eq .blocks _
  · rw [e2]; exact RaisedSince.raise (l := []) ⟨fun k hk => absurd hk (by simp), fun _ _ => id⟩ (by simp)

/-! ## The Hunt's next step -/

/-- Mechanism's refusal of a close, as R49's checks give it. -/
theorem closeRefusal_some {p : Part} {why : Why} : closeRefusal p = some why ↔ p.refusesClose why := by
  unfold closeRefusal Part.refusesClose
  have hs : ∀ x : Why, (some x = some why) = (why = x) := fun x => by rw [Option.some.injEq]; exact propext eq_comm
  by_cases a1 : p.mech.order = .none
  swap; · simp only [ne_eq, a1, not_false_eq_true, if_true, hs]
  by_cases a2 : p.position = .opened
  swap; · simp only [ne_eq, a1, a2, not_true, not_false_eq_true, if_true, if_false, hs]
  cases a3 : p.mech.energyHigh
  · simp only [ne_eq, a1, a2, not_true, if_false, Bool.not_false, if_true, hs]
  cases a4 : p.hasBlock .hotLine
  swap
  · simp only [ne_eq, a1, a2, not_true, if_false, Bool.not_true, Bool.false_eq_true, reduceCtorEq, if_true, hs]
  cases a5 : p.hasBlock .mechanism <;>
    simp only [ne_eq, a1, a2, not_true, if_false, Bool.not_true, Bool.false_eq_true, reduceCtorEq, if_true, hs]

/-- Mechanism accepts a close that none of R49's checks refuses. -/
theorem closeRefusal_none {p : Part} : closeRefusal p = none ↔ ∀ why : Why, ¬p.refusesClose why := by
  simp only [← closeRefusal_some]
  cases closeRefusal p <;> simp

/-- The close due, placed or refused (R138, R143). -/
theorem placeDueClose_spec {p : Part} {due : CloseDue} (h : p.hunt.closeDue = due) (hd : due ≠ .none)
    (h1 : p.seq.failureNoted = false) (h2 : p.mech.order = .close → p.mech.placer = some .hunt) :
    DueClosePlaced due p (placeDueClose p) := by
  have hp : ∀ (kind : CloseKind), (∀ why : Why, ¬p.refusesClose why) →
      placeClose .hunt kind p = (p.huntClosePlaced kind, none) := by
    intro kind hn
    unfold placeClose
    rw [closeRefusal_none.2 hn]
    rfl
  have hr : ∀ (kind : CloseKind) (why : Why), p.refusesClose why → placeClose .hunt kind p = (closeEnded p, some why) := by
    intro kind why hw
    unfold placeClose
    rw [closeRefusal_some.2 hw]
  constructor
  · intro hn
    cases due with
    | none => exact absurd rfl hd
    | test => simp only [placeDueClose, h, placeTestClose, hp _ hn]; rfl
    | restore => simp only [placeDueClose, h, placeRestoreClose, hp _ hn]; rfl
  · intro why hw
    have := abandon_spec (reason := .closeRefused) (some (.refusal why)) {} none (p := closeEnded p) (by simp) h1 h2
    cases due with
    | none => exact absurd rfl hd
    | test => simp only [placeDueClose, h, placeTestClose, hr _ _ hw]; exact this
    | restore => simp only [placeDueClose, h, placeRestoreClose, hr _ _ hw]; exact this

/-- A close that becomes due is placed, or waits (R137). -/
theorem closeBecomesDue_spec {due : CloseDue} (hd : due ≠ .none) {p : Part}
    (h1 : p.seq.failureNoted = false) (h2 : p.mech.order = .close → p.mech.placer = some .hunt) :
    CloseDueTaken due p (closeBecomesDue due p) := by
  constructor
  · intro a b
    have hc : Part.closeConditions { p with hunt := { p.hunt with closeDue := due } } = true := by
      unfold Part.closeConditions
      cases due <;> simp_all
    unfold closeBecomesDue
    simp only [hc, if_true]
    exact placeDueClose_spec rfl hd h1 h2
  · intro a
    have hc : Part.closeConditions { p with hunt := { p.hunt with closeDue := due } } = false := by
      unfold Part.closeConditions
      rcases a with a | ⟨a, b⟩ <;> cases due <;> simp_all
    unfold closeBecomesDue
    simp only [hc, Bool.false_eq_true, if_false]
    rfl

/-- A switch order due with the breaker OPEN (R132). -/
theorem issueOrder_spec (j : Nat) (a : SwitchAction) {p : Part} (h0 : p.position = .opened)
    (h1 : p.seq.failureNoted = false) (h2 : p.mech.order = .close → p.mech.placer = some .hunt) :
    OrderTaken j a p (issueOrder j a p) := by
  constructor
  · exact fun h => issueOrder_eq a h0 h
  · intro h
    have : issueOrder j a p = abandon .switchNotOperable none emptyCall p := by
      unfold issueOrder; simp [h0, h]
    rw [this]
    exact abandon_spec none {} none (by simp) h1 h2

/-- The next order of a probe's configuration, or its test close (R132). -/
theorem deriveOrder_spec {m : Nat} {p : Part} (hm : p.hunt.probe = some m) (h0 : p.position = .opened)
    (h1 : p.seq.failureNoted = false) (h2 : p.mech.order = .close → p.mech.placer = some .hunt) :
    ProbeDerived m p (deriveOrder p) := by
  constructor
  · intro j j1 j2 hc hb
    simp only [deriveOrder, hm, Part.lowestNotClosed_eq_some j1 j2 hc hb]
    exact issueOrder_spec j _ h0 h1 h2
  · intro hc hb
    simp only [deriveOrder, hm, Part.lowestNotClosed_eq_none hc, ne_eq, hb, not_false_eq_true, if_true]
    exact issueOrder_spec m _ h0 h1 h2
  · intro hc hb
    simp only [deriveOrder, hm, Part.lowestNotClosed_eq_none hc, ne_eq, hb, not_true, if_false]
    exact closeBecomesDue_spec (by simp) h1 h2

/-- A conclusion, before the breaker is handed back (R144, items 1 to 4). -/
theorem conclude_spec (named : HandBack) (p : Part) :
    ∃ N : PerMaster MasterNotices,
      conclude named p =
        handBack named { p with hunt := p.hunt.concludedBy, entries := p.entriesLeft, notices := N } ∧
      RaisedSince p { p with notices := N } [.huntEnd] ∧
      (p.hasBlock .hunt = true → ∀ m : Master, Part.pendingFor { p with notices := N } m .blocks = true) := by
  have hw : ∀ o r d, writeResult o r d { p with hunt := { p.hunt with state := .concluded } } =
      { p with hunt := (writeResult o r d { p with hunt := { p.hunt with state := .concluded } }).hunt } := fun _ _ _ => rfl
  have hh : (writeResult (if p.hunt.lo = p.hunt.hi then .concludedSection else .concludedRange) p.hunt.restoreReason none
      { p with hunt := { p.hunt with state := .concluded } }).hunt = p.hunt.concludedBy := rfl
  refine ⟨(raise .huntEnd (removePart .hunt { p with hunt := p.hunt.concludedBy })).notices, ?_, ?_, fun hb m => ?_⟩
  · unfold conclude
    rw [hw, hh, raise_eq]
    unfold removePart
    split
    · rw [raise_eq .blocks]; rfl
    · rename_i hb
      have : p.entriesLeft = p.entries := by
        unfold Part.entriesLeft
        rw [List.filter_eq_self]
        simpa [Part.hasBlock] using hb
      rw [this]
  · have h : RaisedSince p (removePart .hunt { p with hunt := p.hunt.concludedBy }) [] := by
      refine ⟨fun k hk => absurd hk (by simp), fun m k hk => ?_⟩
      rw [removePart_pendingFor]
      have : Part.pendingFor { p with hunt := p.hunt.concludedBy } m k = p.pendingFor m k := rfl
      rw [this, hk, Bool.true_or]
    exact (h.raise (k := .huntEnd) (by simp)).congr rfl
  · refine (pendingFor_congr (q := raise .huntEnd (removePart .hunt { p with hunt := p.hunt.concludedBy })) rfl m .blocks).trans
      (raise_kept _ _ _ _ (removePart_blocks (by exact hb) m))

/-- The next step of restoration (R142). -/
theorem restoreStep_spec {p : Part} (h0 : p.position = .opened) (h1 : p.seq.failureNoted = false)
    (h2 : p.mech.order = .close → p.mech.placer = some .hunt) : RestorationStepped p (restoreStep p) := by
  constructor
  · intro hl
    obtain ⟨N, e, hr, hb⟩ := conclude_spec .lockout p
    unfold restoreStep
    rw [if_pos hl, e, handBack_lockout (by exact h1)]
    exact ⟨raise_eq .lockout _, ((hr.of (fun _ _ => id)).raise (k := .lockout) (by simp)).sub (by simp),
      fun h m => raise_kept _ _ _ _ (hb h m)⟩
  · intro hl hb
    unfold restoreStep
    rw [if_neg hl, if_pos hb]
    exact issueOrder_spec _ _ h0 h1 h2
  · intro j hb j1 j2 hc hj
    unfold restoreStep
    rw [if_neg (by omega), if_neg (by simp [hb]), Part.lowestNotClosed_eq_some j1 j2 hc hj]
    exact issueOrder_spec j _ h0 h1 h2
  · intro hl hb hc
    unfold restoreStep
    rw [if_neg hl, if_neg (by simp [hb]), Part.lowestNotClosed_eq_none hc]
    exact closeBecomesDue_spec (by simp) h1 h2

/-- Restoration entered (R142). -/
theorem enterRestoration_spec (reason : HuntReason) {p : Part} (h0 : p.position = .opened)
    (h1 : p.seq.failureNoted = false) (h2 : p.mech.order = .close → p.mech.placer = some .hunt) :
    RestorationEntered reason p (enterRestoration reason p) := restoreStep_spec h0 h1 h2

/-- The candidates are the positions that a probe may open (R131, item 3). -/
theorem mem_candidates {p : Part} {m : Nat} : m ∈ p.candidates ↔ p.mayProbe m := by
  unfold Part.candidates Part.mayProbe
  rw [List.mem_filter, List.mem_range'_1, Bool.and_eq_true, Bool.not_eq_true']
  exact ⟨fun ⟨⟨a, b⟩, c, d⟩ => ⟨by omega, by omega, c, d⟩, fun ⟨a, b, c, d⟩ => ⟨⟨by omega, by omega⟩, c, d⟩⟩

/-- The best candidate is the one that R131 names. -/
theorem bestProbe_candidates {p : Part} {m : Nat} (hm : p.mayProbe m)
    (hb : ∀ j : Nat, p.mayProbe j →
      probeScore p.hunt.lo p.hunt.hi m < probeScore p.hunt.lo p.hunt.hi j ∨
        (probeScore p.hunt.lo p.hunt.hi m = probeScore p.hunt.lo p.hunt.hi j ∧ m ≤ j)) :
    bestProbe p.hunt.lo p.hunt.hi p.candidates = some m := by
  have hs : p.candidates.Pairwise (· < ·) := (List.pairwise_lt_range' ..).filter _
  obtain ⟨s1, s2⟩ := bestProbe_spec p.hunt.lo p.hunt.hi p.candidates hs
  cases h : bestProbe p.hunt.lo p.hunt.hi p.candidates with
  | none =>
    have := mem_candidates.2 hm
    rw [s1.1 h] at this
    exact absurd this (by simp)
  | some x =>
    obtain ⟨x1, x2⟩ := s2 x h
    have := x2 m (mem_candidates.2 hm)
    have := hb x (mem_candidates.1 x1)
    have : x = m := by omega
    rw [this]

/-- The next step planned (R131). -/
theorem plan_spec {p : Part} (h0 : p.position = .opened) (h1 : p.seq.failureNoted = false)
    (h2 : p.mech.order = .close → p.mech.placer = some .hunt) : Planned p (plan p) := by
  constructor
  · intro a
    unfold plan; rw [if_pos a]
    exact enterRestoration_spec _ h0 h1 h2
  · intro a b
    unfold plan; rw [if_neg a, if_pos b]
    exact enterRestoration_spec _ h0 h1 h2
  · intro a b c
    have : p.candidates = [] := by
      rw [List.eq_nil_iff_forall_not_mem]
      exact fun m hm => c m (mem_candidates.1 hm)
    unfold plan; rw [if_neg a, if_neg b, this]
    exact enterRestoration_spec _ h0 h1 h2
  · intro m a b c d
    unfold plan; rw [if_neg a, if_neg b, bestProbe_candidates c d]
    exact deriveOrder_spec rfl h0 h1 h2

end Sys2Proof.Machine
end

