-- ==== Sys2Proof/Laws/Requests.lean ====
section
/-! SUPPORT. Requests: bytes and words, a request's command, and the part in which its owner finds it. -/

namespace Sys2Proof.Machine

theorem joinHalf_getLsbD (a b : Byte) (i : Nat) :
    (joinHalf a b).getLsbD i = if i < 8 then a.getLsbD i else b.getLsbD (i - 8) := BitVec.getLsbD_append

theorem joinLong_getLsbD (a b c d : Byte) (i : Nat) :
    (joinLong a b c d).getLsbD i =
      if i < 24 then if i < 16 then if i < 8 then a.getLsbD i else b.getLsbD (i - 8) else c.getLsbD (i - 16)
      else d.getLsbD (i - 24) := by
  refine BitVec.getLsbD_append.trans ?_
  split
  · refine BitVec.getLsbD_append.trans ?_
    split
    · exact BitVec.getLsbD_append
    · rfl
  · rfl

theorem joinHalf_split (h : Half) : joinHalf (h.extractLsb' 0 8) (h.extractLsb' 8 8) = h := by
  refine BitVec.eq_of_getLsbD_eq fun i hi => ?_
  rw [joinHalf_getLsbD]
  split
  · simp_all
  · simp_all; omega

theorem splitHalf_join (a b : Byte) : splitHalf (joinHalf a b) = [a, b] := by
  simp only [splitHalf, List.cons.injEq, and_true]
  constructor <;> refine BitVec.eq_of_getLsbD_eq fun i hi => ?_ <;> simp [joinHalf_getLsbD, hi]

theorem joinLong_split (l : Long) :
    joinLong (l.extractLsb' 0 8) (l.extractLsb' 8 8) (l.extractLsb' 16 8) (l.extractLsb' 24 8) = l := by
  refine BitVec.eq_of_getLsbD_eq fun i hi => ?_
  rw [joinLong_getLsbD]
  (repeat' split) <;> simp [BitVec.getLsbD_extractLsb'] <;> grind

theorem splitLong_join (a b c d : Byte) : splitLong (joinLong a b c d) = [a, b, c, d] := by
  simp only [splitLong, List.cons.injEq, and_true]
  refine ⟨?_, ?_, ?_, ?_⟩ <;> refine BitVec.eq_of_getLsbD_eq fun i hi => ?_ <;> simp [joinLong_getLsbD, hi] <;> grind

/-- The command of a request is its arrival, taken by the service side. -/
theorem exec_command (k : LinkId) (r : Request) (s : State) : exec (r.command k) s = after (request k r) s := by
  cases r <;> rfl

/-- Taking a frame leaves what no rule of health or silence touches. -/
theorem found_started (p : Part) (k : LinkId) (m : Master) (r : Request) : (p.found k m r).started = p.started := by
  unfold Part.found wellFormed heard countGood
  dsimp only
  cases m <;> simp <;> split <;> simp

@[simp] theorem ownerOf_code (o : Master) : ownerOf (byte (Master.code o)).toNat = some (.master o) := by cases o <;> rfl
@[simp] theorem levelOf_code (x : Level) : levelOf (byte x.code).toNat = some x := by cases x <;> rfl
@[simp] theorem seasonOf_code (x : Season) : seasonOf (byte x.code).toNat = some x := by cases x <;> rfl
@[simp] theorem targetOf_code (g : GroupId) : targetOf (byte (GroupId.code g)).toNat = some (.group g) := by cases g <;> rfl
@[simp] theorem groupOf_code (g : GroupId) : groupOf (byte (GroupId.code g)).toNat = some g := by cases g <;> rfl

/-- A field number that is written is one of the twenty-one (R99). -/
theorem fieldAccepts_range {n v : Nat} (h : fieldAccepts n v = true) : 1 ≤ n ∧ n ≤ 21 := by
  unfold fieldAccepts at h; split at h <;> simp_all

end Sys2Proof.Machine
end

