-- ==== Sys2Proof/Laws/Step.lean ====
section
/-! SUPPORT. How a property of the part passes through a step: it is enough that every command keeps it and that a millisecond
keeps it; and a command that is an expiry keeps what the rule at the timer's end keeps. -/

namespace Sys2Proof.Machine

/-- A property that every command keeps, and that the passing of a millisecond keeps, is kept by a step. -/
theorem step_keeps (I : Part → Prop)
    (hc : ∀ (c : Instr) (s : State), I s.toPart → ∃ t : State, exec c s = .next t ∧ I t.toPart)
    (ht : ∀ p : Part, I p → I (passTime p)) (s t : State) (h : I s.toPart) (hs : step s = .next t) : I t.toPart := by
  unfold step at hs
  split at hs
  · unfold idle at hs
    split at hs
    · injection hs with hs; subst hs; exact h
    · split at hs
      · rename_i d _
        obtain ⟨u, h1, h2⟩ := hc d.command s h
        rw [h1] at hs; injection hs with hs; subst hs; exact h2
      · injection hs with hs; subst hs; exact ht _ h
  · rename_i c rest _
    obtain ⟨u, h1, h2⟩ := hc c { s with pending := rest } h
    rw [h1] at hs; injection hs with hs; subst hs; exact h2

/-- An expiry taken keeps what moving the clock and the rule at the timer's end keep. -/
theorem expired_keeps (I : Part → Prop) (t : Option Nat) (f : Part → Part) (p : Part) (h : I p)
    (hr : ∀ e : Nat, I (p.reach e)) (hf : ∀ q : Part, I q → I (f q)) : I (expired t f p) := by
  unfold expired; split
  · exact hf _ (hr _)
  · exact h

end Sys2Proof.Machine
end

