-- ==== Sys2Proof/Tests/Slice0.lean ====
section
/-! SUPPORT. Tests: each check of WellFormed refuses an ill-formed command; steps whose results the spec's worked sequences and
tables give; and, for each statement with hypotheses, a state and operands that meet them together. -/

namespace Sys2Proof.Tests

open Sys2Proof.Machine

/-! ## Ill-formed commands are refused -/

theorem test_wellFormed_refuses_empty_frame : (Instr.measurementFrame []).wellFormed = false := by decide
theorem test_wellFormed_refuses_good_length_byte : (Instr.badLengthByte .link1 40).wellFormed = false := by decide
theorem test_wellFormed_takes_length_41 : (Instr.badLengthByte .link1 41).wellFormed = true := by decide
theorem test_wellFormed_refuses_crew_expiry : (Instr.blockExpiry .crew 0).wellFormed = false := by decide
theorem test_wellFormed_refuses_item_damaged_twice :
    (Instr.coldStart ⟨0, none, none, none, true, false, false, [.season, .season]⟩).wellFormed = false := by decide

/-! ## Small states -/

/-- The settings of the worked sequences of 04 and 12. -/
def work : Settings :=
  { fallback with
    phasePickup := some 2000, phaseCurve := some 1, phaseTms := some 20, sefPickup := some 300, shots := some 2
    deadTime1 := some 1000, deadTime2 := some 5000, reclaimTime := some 30, coldLoadMultiplier := some 150
    coldLoadThreshold := some 600, huntTestLimit := some 4 }

/-- The same with one shot, as G1 asks, and with none, as G2 and G3 ask (R103). -/
def guarded (shots : Nat) : Settings := { work with shots := some shots, coldLoadMultiplier := some 100 }

/-- A READY group. -/
def ready (s : Settings) : Group := ⟨.ready, some s, some s⟩

/-- A channel that reads a magnitude. -/
def reads (v : Nat) : Channel := ⟨some .normal, some v, 0, true, some v⟩

/-- A part in service, uptime 1000 s: measurement GOOD, source LIVE, spring charged, all groups READY and G0 active, the
breaker CLOSED, links 1 to 3 of LOCAL, CONTROL and CREW, FREE and IDLE, nothing pending. -/
def closedUp : State :=
  { State.reset with
    started := true
    clock := 1000000
    intake := { State.reset.intake with
      reference := some 40, lastKind := some .frame, loss := 0, state := .good, sourceLive := true
      channels := ⟨reads 100, reads 100, reads 100, reads 100⟩ }
    elements := { State.reset.elements with openCount := 0 }
    mech := { State.reset.mech with openMade := false, closedMade := true, settled := some .closed, energyHigh := true }
    seq := { State.reset.seq with state := .closed, lockoutReason := none }
    entries := []
    posture := { State.reset.posture with
      groups := ⟨ready work, ready (guarded 1), ready (guarded 0), ready (guarded 0)⟩, silent := false, level := .none
      wanted := .g0, active := .group .g0 }
    links :=
      let l (m : Master) : Link := { State.reset.links.link1 with role := .held m, receive := .idle }
      ⟨l .bay, l .control, l .crew⟩
    notices :=
      let n : MasterNotices := { latched := 0, mask := 0, holdoff := 20, holdoffTimer := none, line := false }
      ⟨n, n, n⟩ }

/-- The same part with the breaker OPEN in LOCKOUT. -/
def openUp : State :=
  { closedUp with
    mech := { closedUp.mech with openMade := true, closedMade := false, settled := some .opened }
    seq := { closedUp.seq with state := .lockout, lockoutReason := some .tripCause } }

/-- The same part in TRIPPING with the Sequencer's trip order in progress and its record pending. -/
def tripping : State :=
  { closedUp with
    mech := { closedUp.mech with
      order := .trip, placer := some .sequencer, orderTimer := some 1000200, tripOutput := true }
    seq := { closedUp.seq with
      state := .tripping, lastTrip := some ⟨.elements, none, { phA := true }, ⟨false, false, false⟩, ⟨false, false, false, false⟩⟩ }
    records :=
      { ring :=
          [⟨7, 1000, .elements, { phA := true }, none, ⟨false, false, false⟩, ⟨false, false, false, false⟩, 0, .group .g0, .none,
            ⟨none, none, none, none⟩, some 197, .pending⟩]
        next := 8, pendingRecord := some 7 } }

/-- The same part in DEAD_TIME for shot 1, the expiry 200 ms away. -/
def deadTime : State :=
  { openUp with
    seq := { openUp.seq with
      state := .deadTime, pendingShot := some 1, deadTimer := some 1000200, openingMoment := some 999200 } }

/-- The same part in CLOSING on an automatic close. -/
def closing : State :=
  { openUp with
    mech := { openUp.mech with order := .close, placer := some .sequencer, orderTimer := some 1000300, closeOutput := true }
    elements := { openUp.elements with closeKind := .automatic }
    seq := { openUp.seq with state := .closing, shotsUsed := 1, purpose := .automatic } }

/-- A READY section table of seven switches, all operable, CLOSED and of an order timeout of 120 s (07, the worked hunt). -/
def sevenSwitches : SectionTable :=
  { state := .ready, n := some 7, timeout := some 120
    switches :=
      [⟨some 21, true, .closed⟩, ⟨some 22, true, .closed⟩, ⟨some 23, true, .closed⟩, ⟨some 24, true, .closed⟩,
        ⟨some 25, true, .closed⟩, ⟨some 26, true, .closed⟩, ⟨some 27, true, .closed⟩] ++
        List.replicate 8 ⟨none, false, .unknown⟩
    image := none }

/-- The part OPEN in LOCKOUT, ready for a hunt. -/
def huntable : State :=
  { openUp with
    posture := { openUp.posture with level := .none }
    table := sevenSwitches }

/-- The same with a hunt ORDERING, its order out to switch 24. -/
def ordering : State :=
  { huntable with
    seq := { huntable.seq with state := .huntHeld }
    entries := [⟨.hunt, .part, 0, 1000, none, none, none⟩]
    hunt := { huntable.hunt with
      state := .ordering, hi := 7, probe := some 4, testLimit := some 4, testPickup := some 300
      outstanding := some ⟨40, 4, 24, .openSwitch⟩, orderTimer := some 1000500, nextOrder := 41, ordersIssued := 1 } }

/-- The same with the hunt TESTING, the breaker CLOSED on the test close and the window full but for one step. -/
def testing : State :=
  { ordering with
    mech := closedUp.mech
    elements := { ordering.elements with mode := .huntTest }
    hunt := { ordering.hunt with
      state := .testing, outstanding := none, orderTimer := none, testsUsed := 1, settleCount := 5, windowCount := 19
      windowSum := 760 } }

/-- The Hunt's close in progress and the breaker still OPEN; the contacts on their way; its trip in progress, the record
pending. -/
def huntClosing : State :=
  { ordering with
    mech := { ordering.mech with order := .close, placer := some .hunt, orderTimer := some 1000300, closeOutput := true }
    elements := { ordering.elements with closeKind := .huntTest, mode := .huntTest }
    hunt := { testing.hunt with settleCount := 0, windowCount := 0, windowSum := 0 } }
def huntMoving : State := { huntClosing with mech := { huntClosing.mech with openMade := false } }
def huntOpening : State :=
  { testing with
    mech := { testing.mech with order := .trip, placer := some .hunt, orderTimer := some 1000200, tripOutput := true }
    records := tripping.records
    hunt := { testing.hunt with state := .testTrip, hi := 3 } }

/-- A running hunt in each position and with each order that an abandonment tells apart. -/
def hunts : List State := [ordering, huntClosing, huntMoving, testing, huntOpening]

/-- The four fields of Part.heldByHunt, as one check. -/
def held (p : Part) : Bool :=
  p.hunt.state.running && p.seq.state = .huntHeld && !p.seq.failureNoted && (p.mech.order ≠ .close || p.mech.placer = some .hunt)

theorem heldByHunt_iff (p : Part) : p.heldByHunt ↔ held p = true := by
  constructor
  · rintro ⟨a, b, c, d⟩
    by_cases h : p.mech.order = .close <;> simp [held, a, b, c, h]
    exact d h
  · intro h
    simp only [held, Bool.and_eq_true, Bool.not_eq_true', decide_eq_true_eq, Bool.or_eq_true] at h
    exact ⟨h.1.1.1, h.1.1.2, h.1.2, fun c => h.2.resolve_left fun n => n c⟩

/-- The hunts meet the four cases of HuntAbandoned, and HUNT is in the list of each. -/
theorem hunts_cases :
    (∀ s ∈ hunts, held s.toPart = true ∧ s.started = true ∧ s.toPart.hasBlock .hunt = true) ∧
      (ordering.toPart.position = .opened ∧ ordering.mech.order ≠ .close) ∧
      (huntClosing.toPart.position = .opened ∧ huntClosing.mech.order = .close) ∧
      (∀ s ∈ [huntMoving, testing], s.toPart.position ≠ .opened ∧ s.mech.order ≠ .trip) ∧
      (huntOpening.toPart.position ≠ .opened ∧ huntOpening.mech.order = .trip) := by decide

/-- The field of the state after a command, where there is one. -/
def after? {α : Type} (o : Host.Outcome State Fault Refusal) (f : State → α) : Option α :=
  match o with
  | .next t => some (f t)
  | _ => none

/-- The quantity a command leaves in link 1's answer, where it gives one. -/
def answered? (o : Host.Outcome State Fault Refusal) : Option (List Byte) :=
  match o with
  | .next t => t.links.link1.answer.map (·.frame)
  | _ => none

/-! ## Measurement Intake (01, the worked sequences) -/

/-- Frame 42, source LIVE, all channels valid and 100. -/
def frame42 : List Byte := [42, 31, 100, 0, 100, 0, 100, 0, 100, 0]

theorem test_frame_late_is_repeat :
    after? (exec (.measurementFrame (41 :: frame42.tail)) { closedUp with intake := { closedUp.intake with reference := some 41 } })
      (fun t => t.intake.reference) = some (some 41) := by decide

/-- A jump in numbering: 10 to 14 counts 3, and the complete step takes 1 off. -/
theorem test_frame_jump_counts :
    after? (exec (.measurementFrame (14 :: frame42.tail)) { closedUp with intake := { closedUp.intake with reference := some 10 } })
      (fun t => (t.intake.reference, t.intake.loss)) = some (some 14, 2) := by decide

/-- Expiry 1 of the silence: reference 101, channels held with hold 1, source LIVE with hold 1, counter 1, timer 10 ms. -/
theorem test_missing_step_holds :
    after? (exec .missingFrameStep
        { closedUp with intake := { closedUp.intake with reference := some 100, frameDue := some 1000015 } })
      (fun t => (t.intake.reference, t.intake.channels.a.hold, t.intake.channels.a.value, t.intake.liveHold, t.intake.loss,
        t.intake.frameDue)) = some (some 101, 1, some 100, 1, 1, some 1000025) := by decide

/-- Expiry 32 of the silence: LOST, the MEASURE block in the list, MEASURE_LOSS and BLOCKS pending, no trip under G0. -/
theorem test_missing_step_loses :
    after? (exec .missingFrameStep
        { closedUp with intake := { closedUp.intake with reference := some 131, frameDue := some 1000000, loss := 31 } })
      (fun t => (t.intake.state, t.entries.map (·.kind), t.notices.bay.latched, t.mech.order)) =
      some (.lost, [.measure], 136, .none) := by decide

/-! ## Protection Elements (02, the worked cases) -/

/-- An inverse-time phase trip: M64 179, band 4, accrual 5102. -/
theorem test_accrual_worked : accrual 1 20 179 = 5102 := by decide
theorem test_accrual_slowest : accrual 1 150 64 = 111 := by decide
theorem test_multiple_saturates : (reads 65534).multiple 100 = some 1280 := by decide
theorem test_decay_worked : stepAcc (reads 800) 2000 (1, 20) 510200 = 460200 := by decide

/-- A part on step 196 of the worked case. -/
def step196 : State :=
  { closedUp with
    elements := { closedUp.elements with
      acc := ⟨999992, 0, 0, 0⟩, mask := ⟨true, false, false, false⟩
      episode := some ⟨10000, 196, 0, ⟨some ⟨5600, false⟩, some ⟨100, false⟩, some ⟨100, false⟩, some ⟨0, false⟩⟩⟩ } }

/-- Step 197 of the worked case: TRIP_FULL, TRIPPING; the record has 197 steps and a peak of 5600. -/
theorem test_inverse_time_trips :
    after? (exec (.measurementFrame [41, 31, 0xe0, 0x15, 100, 0, 100, 0, 0, 0]) step196)
      (fun t => (t.elements.acc.a, t.seq.state, t.mech.tripOutput)) = some (1000000, .tripping, true) := by decide
theorem test_inverse_time_record :
    after? (exec (.measurementFrame [41, 31, 0xe0, 0x15, 100, 0, 100, 0, 0, 0]) step196)
      (fun t => t.records.ring.map fun r => (r.causes.phA, r.steps, r.peaks.a)) =
      some [(true, some 197, some ⟨5600, false⟩)] := by decide

theorem test_windows_end :
    after? (exec .sotfWindowExpiry { closedUp with elements := { closedUp.elements with sotf := some 3, coldLoad := some 4 } })
      (fun t => (t.elements.sotf, t.elements.coldLoad)) = some (none, some 4) := by decide
theorem test_cold_load_window_ends :
    after? (exec .coldLoadWindowExpiry { closedUp with elements := { closedUp.elements with sotf := some 3, coldLoad := some 4 } })
      (fun t => (t.elements.sotf, t.elements.coldLoad)) = some (some 3, none) := by decide
theorem test_quiet_ends_episode :
    after? (exec .quietEnd
        { closedUp with elements := { closedUp.elements with episode := some ⟨1, 2, 49, ⟨none, none, none, none⟩⟩ } })
      (fun t => t.elements.episode) = some none := by decide

/-! ## Breaker Mechanism Interface and Sequencer (03, 04, the worked sequences) -/

/-- OPENED: the record completed, DEAD_TIME for shot 1, expiry 1000 ms after the opening. -/
theorem test_open_starts_dead_time :
    after? (exec (.contactChange true false) tripping)
      (fun t => (t.seq.state, t.seq.pendingShot, t.seq.deadTimer, t.mech.tripOutput, t.records.ring.map (·.outcome))) =
      some (.deadTime, some 1, some 1001000, false, [.opened]) := by decide

/-- CLOSED on an automatic close: RECLAIM for 30 s, the close output released, no SOTF window. -/
theorem test_closed_starts_reclaim :
    after? (exec (.contactChange false true) closing)
      (fun t => (t.seq.state, t.seq.reclaimTimer, t.mech.closeOutput, t.elements.sotf)) =
      some (.reclaim, some 1030000, false, none) := by decide

theorem test_travel_timer_starts :
    after? (exec (.contactChange false false) closedUp) (fun t => t.mech.travelTimer) = some (some 1000300) := by decide
theorem test_travel_timer_fails_position :
    after? (exec .travelTimerExpiry { closedUp with
        mech := { closedUp.mech with openMade := false, closedMade := false, travelTimer := some 1000300 } })
      (fun t => (t.seq.state, t.entries.map (·.kind), t.clock)) = some (.failed, [.mechanism], 1000300) := by decide
theorem test_discrepancy_fails_position :
    after? (exec .discrepancyTimerExpiry { closedUp with
        mech := { closedUp.mech with openMade := true, closedMade := true, discrepancyTimer := some 1000300 } })
      (fun t => (t.seq.state, t.notices.crew.latched)) = some (.failed, 130) := by decide
theorem test_trip_order_times_out :
    after? (exec .tripOrderTimeout tripping)
      (fun t => (t.mech.order, t.mech.tripOutput, t.records.ring.map (·.outcome), t.seq.state)) =
      some (.none, false, [.tripFail], .failed) := by decide
theorem test_close_order_times_out :
    after? (exec .closeOrderTimeout closing) (fun t => (t.mech.order, t.mech.closeOutput, t.seq.state)) =
      some (.none, false, .failed) := by decide

/-- Dead-time expiry with the source LIVE and the spring charged: CLOSING on shot 1. -/
theorem test_dead_time_closes :
    after? (exec .deadTimeExpiry deadTime) (fun t => (t.seq.state, t.seq.shotsUsed, t.mech.closeOutput, t.elements.closeKind)) =
      some (.closing, 1, true, .automatic) := by decide

/-- Dead-time expiry with energy-ready LOW: CLOSE_WAIT for 10 s; then energy-ready HIGH closes. -/
theorem test_dead_time_waits :
    after? (exec .deadTimeExpiry { deadTime with mech := { deadTime.mech with energyHigh := false } })
      (fun t => (t.seq.state, t.seq.closeWaitTimer)) = some (.closeWait, some 1010200) := by decide
theorem test_energy_closes :
    after? (exec (.energyReadyChange true)
        { deadTime with
          mech := { deadTime.mech with energyHigh := false }
          seq := { deadTime.seq with state := .closeWait, deadTimer := none, closeWaitTimer := some 1010200 } })
      (fun t => (t.seq.state, t.mech.closeOutput)) = some (.closing, true) := by decide
theorem test_close_wait_expires :
    after? (exec .closeWaitExpiry
        { deadTime with seq := { deadTime.seq with state := .closeWait, deadTimer := none, closeWaitTimer := some 1010200 } })
      (fun t => (t.seq.state, t.seq.lockoutReason)) = some (.lockout, some .closeWaitExpired) := by decide
theorem test_reclaim_expires :
    after? (exec .reclaimExpiry
        { closedUp with seq := { closedUp.seq with state := .reclaim, shotsUsed := 1, reclaimTimer := some 1030000 } })
      (fun t => (t.seq.state, t.seq.shotsUsed, t.notices.crew.latched)) = some (.closed, 0, 256) := by decide

/-- TRIP and CLOSE: their bodies, TRIP_PLACED and none. -/
theorem test_trip_answers : answered? (exec (.trip .link1) closedUp) = some [3, 7, 0, 0] := by decide
theorem test_close_answers : answered? (exec (.close .link1) openUp) = some [2, 8, 0] := by decide
theorem test_close_refused_not_lockout : answered? (exec (.close .link1) closedUp) = some [3, 8, 2, 3] := by decide
theorem test_reset_mechanism_answers : answered? (exec (.resetMechanism .link1) openUp) = some [2, 9, 0] := by decide

/-! ## Reclose Blocks (05, the worked sequences) -/

/-- CONTROL: PLACE BLOCK OPERATOR, reason 12, expiry 30, at uptime 1000: it expires at 2800. -/
theorem test_operator_placed :
    after? (exec (.placeBlock .link2 1 12 30) closedUp)
      (fun t => t.entries.map fun e => (e.kind, e.owner, e.reason, e.moment)) =
      some [(.operator, .master .control, 12, some 2800)] := by decide

/-- CREW: PLACE BLOCK HOT_LINE, reason 7: slot 1, G3 active, the answer held for the write. -/
theorem test_hot_line_placed :
    after? (exec (.placeBlock .link3 0 7 0) closedUp)
      (fun t => (t.entries.map (·.slot), t.posture.active, t.links.link3.answer.map (·.held))) =
      some ([some .slot1], .group .g3, some true) := by decide
theorem test_remove_hot_line_of_another : answered? (exec (.removeBlock .link1 0 2 7) closedUp) = some [2, 11, 1] := by decide
theorem test_block_expires :
    after? (exec (.blockExpiry .control 12)
        { closedUp with entries := [⟨.operator, .master .control, 12, 1000, some 30, some 2800, none⟩] })
      (fun t => (t.entries, t.clock, t.notices.bay.latched)) = some ([], 2800000, 128) := by decide

/-! ## Settings groups and fire posture (06, the worked sequences) -/

/-- CONTROL: DECLARE FIRE LEVEL BAN, 12 h, at uptime 1000: G2 is active, the declaration expires at 44,200. -/
theorem test_ban_declared :
    after? (exec (.declareFireLevel .link2 2 12) closedUp)
      (fun t => (t.posture.level, t.posture.active, t.posture.declaredExpiry, t.notices.bay.latched)) =
      some (.ban, .group .g2, some 44200, 64) := by decide

/-- A ban in DEAD_TIME locks out with FIRE_BAN. -/
theorem test_ban_locks_out :
    after? (exec (.declareFireLevel .link2 2 8) deadTime) (fun t => (t.seq.state, t.seq.lockoutReason)) =
      some (.lockout, some .fireBan) := by decide
theorem test_declaration_expires :
    after? (exec .declarationExpiry
        { closedUp with posture := { closedUp.posture with
          declared := .ban, declaredExpiry := some 1200, level := .ban, wanted := .g2, active := .group .g2 } })
      (fun t => (t.posture.level, t.posture.active)) = some (.none, .group .g0) := by decide
theorem test_silence_raises_level :
    after? (exec .silenceTimerExpiry { closedUp with posture := { closedUp.posture with silenceTimer := some 1800000 } })
      (fun t => (t.posture.silent, t.posture.level, t.posture.active, t.clock)) =
      some (true, .elevated, .group .g1, 1800000) := by decide
theorem test_season_ends : after? (exec (.setSeason .link1 0) closedUp) (fun t => (t.posture.season, t.store.queue)) =
    some (.offSeason, [⟨.season .offSeason, some .link1⟩]) := by decide
theorem test_local_raised : after? (exec (.raiseLocalLevel .link1 2) closedUp) (fun t => t.posture.active) =
    some (.group .g2) := by decide
theorem test_local_cleared :
    after? (exec (.clearLocalLevel .link1) { closedUp with posture := { closedUp.posture with localRaise := .elevated } })
      (fun t => t.posture.localRaise) = some .none := by decide

/-- CONFIRM GROUP G1 with shots 2: CHECK_FAILED, check 6, field 0; then shots 1 is written; the active G0 is GROUP_ACTIVE. -/
theorem test_confirm_fails_check_6 :
    answered? (exec (.confirmGroup .link1 1)
        { closedUp with posture := { closedUp.posture with
          groups := { closedUp.posture.groups with g1 := ⟨.editing, some work, none⟩ } } }) = some [4, 15, 8, 6, 0] := by decide
theorem test_write_shots :
    after? (exec (.writeSetting .link1 1 11 1) closedUp)
      (fun t => ((t.posture.groups.get .g1).state, (t.posture.groups.get .g1).working.map (·.shots))) =
      some (.editing, some (some 1)) := by decide
theorem test_write_active_group : answered? (exec (.writeSetting .link1 0 12 2000) closedUp) = some [2, 14, 7] := by decide
theorem test_read_setting : answered? (exec (.readSetting .link1 0 1) closedUp) = some [6, 13, 0, 0xd0, 7, 0, 0] := by decide

/-! ## Earth-fault hunt (07, the worked hunt) -/

/-- The start: range 0 to 7, switch 4 ordered OPEN. -/
theorem test_hunt_starts :
    after? (exec (.startHunt .link1) { huntable with hunt := { huntable.hunt with nextOrder := 40 } })
      (fun t => (t.hunt.state, t.hunt.probe, t.hunt.outstanding, t.seq.state)) =
      some (.ordering, some 4, some ⟨40, 4, 24, .openSwitch⟩, .huntHeld) := by decide

/-- REPORT SWITCH 24 OPEN, reference 40: the configuration is met and the test close accepted. -/
theorem test_report_opens_test :
    after? (exec (.reportSwitch .link2 24 0 40) ordering)
      (fun t => (t.hunt.state, t.hunt.testsUsed, t.mech.closeOutput, t.elements.mode)) =
      some (.testing, 1, true, .huntTest) := by decide

/-- The window's last step brings the sum to 800: CLEAR, range 4 to 7, the trip placed with an empty cause set. -/
theorem test_window_clear :
    after? (exec (.measurementFrame [41, 31, 100, 0, 100, 0, 100, 0, 40, 0]) testing)
      (fun t => (t.hunt.state, t.hunt.lo, t.hunt.hi, t.mech.tripOutput, t.records.ring.map (·.origin))) =
      some (.testTrip, 4, 7, true, [.hunt]) := by decide
theorem test_order_times_out :
    after? (exec .orderTimerExpiry ordering) (fun t => (t.hunt.state, t.hunt.result.map (·.reason), t.believed 4)) =
      some (.abandoned, some .orderTimeout, .unknown) := by decide
theorem test_hunt_aborted :
    after? (exec (.abortHunt .link1) ordering) (fun t => (t.hunt.state, t.entries, t.seq.lockoutReason)) =
      some (.abandoned, [], some .huntEnd) := by decide
theorem test_read_hunt_order :
    after? (exec (.readHuntOrder .link2) ordering) (fun t => (t.links.link2.answer.map fun a => a.frame.take 7)) =
      some (some [8, 26, 0, 40, 24, 4, 0]) := by decide

/-- The test trip of the last section opens after CLEAR: the close of restoration is placed, and its stroke is not the test's
(07, the worked hunt; R33). -/
theorem test_restoration_close_leaves_test_mode :
    after? (exec (.contactChange true false)
        { testing with
          table := (List.range' 1 3).foldl (fun t k => t.withBelieved k .closed) (sevenSwitches.withBelieved 4 .opened)
          mech := { testing.mech with order := .trip, placer := some .hunt, orderTimer := some 1000200, tripOutput := true }
          hunt := { testing.hunt with state := .testTrip, lo := 4, hi := 4 } })
      (fun t => (t.hunt.state, t.mech.closeOutput, t.elements.mode, t.elements.closeKind)) =
      some (.restoring, true, .normal, .huntRestore) := by decide

/-! ## Notices (09, the worked sequences) -/

/-- LOCAL reads TRIP with RECORD pending, holdoff 20 ms: kind 0, pending RECORD, mask empty; the line is released. -/
theorem test_read_notice_trip :
    answered? (exec (.readNotice .link1)
        { closedUp with notices := { closedUp.notices with bay := { closedUp.notices.bay with latched := 513, line := true } } })
      = some [7, 4, 0, 0, 0, 2, 0, 0] := by decide
theorem test_holdoff_expiry_asserts :
    after? (exec (.holdoffExpiry .bay)
        { closedUp with notices := { closedUp.notices with
          bay := { closedUp.notices.bay with latched := 516, holdoffTimer := some 1000020 } } })
      (fun t => (t.notices.bay.line, t.notices.bay.holdoffTimer)) = some (true, none) := by decide
theorem test_mask_keeps_trip :
    answered? (exec (.setNoticeMask .link3 8191) closedUp) = none ∧
      after? (exec (.setNoticeMask .link3 8191) closedUp) (fun t => t.notices.crew.mask) = some 8190 := by decide
theorem test_holdoff_clamped : answered? (exec (.setHoldoff .link1 1001) closedUp) = some [4, 6, 0, 0xe8, 3] := by decide

/-! ## Master links (10) -/

/-- RESET LINK leaves READY alone pending, the mask empty, the holdoff 20 ms, the line asserted. -/
theorem test_link_reset :
    after? (exec (.resetLink .link1)
        { closedUp with notices := { closedUp.notices with
          bay := { latched := 1088, mask := 1344, holdoff := 500, holdoffTimer := some 1000400, line := false } } })
      (fun t => t.notices.bay) = some { latched := 4096, mask := 0, holdoff := 20, holdoffTimer := none, line := true } := by
  decide
theorem test_status_length : (answered? (exec (.status .link1) closedUp)).map (·.length) = some 43 := by decide
theorem test_bad_length_byte :
    after? (exec (.badLengthByte .link1 41) closedUp) (fun t => (t.links.link1.health, t.links.link1.receive)) =
      some (1, .quietWait) := by decide

/-- Length 1 and code 4 are a READ NOTICE. -/
theorem test_two_bytes_are_read_notice :
    (after? (exec (.linkByteReceived .link1 1) closedUp) fun t => answered? (exec (.requestFrame .link1 4) t)) =
      some (some [7, 4, 0, 255, 0, 0, 0, 0]) := by decide
theorem test_gap_abandons_frame :
    after? (exec (.gapTimerExpiry .link1)
        { closedUp with links := { closedUp.links with link1 := { closedUp.links.link1 with
          receive := .inFrame, length := 5, bytes := [13], gapTimer := some 1000005 } } })
      (fun t => (t.links.link1.receive, t.links.link1.bytes, t.links.link1.health)) = some (.idle, [], 1) := by decide
theorem test_quiet_ends :
    after? (exec (.quietTimerExpiry .link1)
        { closedUp with links := { closedUp.links with link1 := { closedUp.links.link1 with
          receive := .quietWait, quietTimer := some 1000005 } } })
      (fun t => t.links.link1.receive) = some .idle := by decide
theorem test_answer_sent_frees :
    after? (exec (.answerSent .link1)
        { closedUp with links := { closedUp.links with link1 := { closedUp.links.link1 with
          busy := true, inHand := some [7], answer := some ⟨[3, 7, 0, 0], false⟩ } } })
      (fun t => (t.links.link1.busy, t.links.link1.answer)) = some (false, none) := by decide

/-! ## Stored image and cold start (11) -/

/-- A damaged slot gives HOT_LINE of CONTROL, reason 0, and G3 or FALLBACK (R94, R115). -/
theorem test_cold_start_damaged_slot :
    after? (exec (.coldStart ⟨0, some .bay, some .bay, none, true, false, true, [.slot .slot2]⟩) closedUp)
      (fun t => (t.entries.map (·.kind), t.posture.active, t.links.link2.role, t.started)) =
      some ([.hotLine, .measure], .fallback, .disabled, false) := by decide
theorem test_start_up_asserts_lines :
    after? (exec .startUpComplete State.reset) (fun t => (t.notices.bay.line, t.intake.frameDue, t.links.link1.quietTimer)) =
      some (true, some 15, some 5) := by decide
/-- Start-up waits for the release of the cold-start input (R196). -/
theorem test_cold_start_input_holds :
    (after? (exec .startUpComplete { State.reset with coldInput := 1 }) fun t =>
      (t.started, t.notices.bay.line, after? (exec .startUpComplete t) (·.started))) = some (false, false, some true) := by decide
theorem test_write_completes :
    after? (exec .storeWriteComplete
        { closedUp with store := { closedUp.store with
          queue := [⟨.season .offSeason, some .link1⟩], writing := true, writeTimer := some 1000040 } })
      (fun t => (t.store.season, t.store.queue, t.store.writing)) = some (⟨.offSeason, true⟩, [], false) := by decide

/-- An idle step takes the earliest expiry that is due. -/
theorem test_idle_takes_expiry :
    after? (step { deadTime with clock := 1000200 }) (fun t => t.seq.state) = some .closing := by decide

/-! ## Witnesses: the hypotheses of each statement, met together -/

/-- Link 1 of a state with its record changed. -/
def withLink1 (f : Link → Link) (s : State) : State := { s with links := { s.links with link1 := f s.links.link1 } }

/-- The state with a command in front of its queue. -/
def queued (c : Instr) (s : State) : State := { s with pending := [c] }

theorem witness_StepTakesFrontOfQueue : (queued .quietEnd closedUp).pending = .quietEnd :: [] := rfl

theorem witness_IdleStepTakesEarliestExpiry_unstarted : State.reset.pending = [] ∧ State.reset.started = false := by decide
theorem witness_IdleStepTakesEarliestExpiry_quiet :
    let s := { deadTime with clock := 1000199 }
    s.pending = [] ∧ s.started = true ∧ ∀ d ∈ s.toPart.deadlines, s.clock < d.moment := by decide
theorem witness_IdleStepTakesEarliestExpiry_due :
    let s := { deadTime with clock := 1000200 }
    s.pending = [] ∧ s.started = true ∧ ⟨1000200, .deadTimeExpiry⟩ ∈ s.toPart.deadlines ∧ 1000200 ≤ s.clock := by decide

theorem witness_RequestFramesRoundTrip : readRequest [5, 1, 0] = some (.setNoticeMask 1) := by decide

theorem serves_local : closedUp.toPart.serves .link1 .bay := ⟨⟨by decide, by decide⟩, by decide⟩
theorem serves_control : closedUp.toPart.serves .link2 .control := ⟨⟨by decide, by decide⟩, by decide⟩
theorem serves_crew : closedUp.toPart.serves .link3 .crew := ⟨⟨by decide, by decide⟩, by decide⟩

theorem witness_RequestTakenByFreeLink : closedUp.toPart.serves .link3 .crew ∧ mayRequest .crew .trip = true :=
  ⟨serves_crew, by decide⟩
theorem witness_RequestWithoutRightRefused :
    (closedUp.toPart.serves .link3 .crew ∧ Request.clearQuality.code ∈ [3, 8, 9, 14, 15, 17, 24]) ∧
      (closedUp.toPart.serves .link1 .bay ∧ Request.confirmSections.code ∈ [18, 21, 22, 27]) ∧
      (closedUp.toPart.serves .link2 .control ∧ Request.clearLocalLevel.code ∈ [19, 20]) :=
  ⟨⟨serves_crew, by decide⟩, ⟨serves_local, by decide⟩, ⟨serves_control, by decide⟩⟩

/-- Link 1 BUSY with a TRIP. -/
def busy : State := withLink1 (fun l => { l with busy := true, inHand := some [7] }) closedUp

theorem busy_inService : busy.toPart.inService .link1 .bay := ⟨by decide, by decide⟩
theorem witness_RequestNotTakenAtOnce_disabled :
    ((withLink1 (fun l => { l with role := .disabled }) closedUp).links.get .link1).role = .disabled := by decide
theorem witness_RequestNotTakenAtOnce_waits :
    busy.toPart.inService .link1 .bay ∧ (busy.links.get .link1).busy = true ∧ (busy.links.get .link1).waiting = none :=
  ⟨busy_inService, by decide⟩
theorem witness_RequestNotTakenAtOnce_overrun :
    let s := withLink1 (fun l => { l with waiting := some [1] }) busy
    s.toPart.inService .link1 .bay ∧ (s.links.get .link1).busy = true ∧ (s.links.get .link1).waiting = some [1] :=
  ⟨⟨by decide, by decide⟩, by decide⟩

theorem witness_FramesMoveHealth_counts :
    let l := (withLink1 (fun l => { l with health := 30 }) closedUp).links.get .link1
    l.role = .held .bay ∧ l.health + 1 < 32 := by decide
theorem witness_FramesMoveHealth_faulty :
    let l := (withLink1 (fun l => { l with health := 31 }) closedUp).links.get .link1
    l.role = .held .bay ∧ l.faulty = false ∧ 32 ≤ l.health + 1 := by decide
theorem witness_FramesMoveHealth_control : (closedUp.links.get .link2).role = .held .control := by decide
theorem witness_FramesMoveHealth_others :
    let l := (withLink1 (fun l => { l with health := 2, faulty := true }) closedUp).links.get .link1
    l.role = .held .bay ∧ Master.bay ≠ .control ∧ 1 < l.health := by decide

/-- Link 1 with its answer sent, or a STATUS waiting besides. -/
def answering (waiting : Option (List Byte)) : State :=
  withLink1 (fun l => { l with answer := some ⟨[2, 7, 0], false⟩, waiting := waiting }) busy

theorem witness_AnswerSentFreesLink_free :
    (answering none).toPart.inService .link1 .bay ∧ ((answering none).links.get .link1).answer = some ⟨[2, 7, 0], false⟩ ∧
      ((answering none).links.get .link1).waiting = none := ⟨⟨by decide, by decide⟩, by decide⟩
theorem witness_AnswerSentFreesLink_waiting :
    let s := answering (some Request.status.frame)
    s.toPart.inService .link1 .bay ∧ (s.links.get .link1).answer = some ⟨[2, 7, 0], false⟩ ∧
      (s.links.get .link1).waiting = some Request.status.frame := ⟨⟨by decide, by decide⟩, by decide⟩

theorem witness_LinkByteReceived_quiet :
    let s := withLink1 (fun l => { l with receive := .quietWait }) closedUp
    s.toPart.inService .link1 .bay ∧ (s.links.get .link1).receive = .quietWait := ⟨⟨by decide, by decide⟩, by decide⟩
theorem witness_LinkByteReceived_idle :
    closedUp.toPart.inService .link1 .bay ∧ (closedUp.links.get .link1).receive = .idle ∧
      (1 ≤ (1 : Byte).toNat ∧ (1 : Byte).toNat ≤ 40) ∧ (1 ≤ (40 : Byte).toNat ∧ (40 : Byte).toNat ≤ 40) ∧
      40 < (41 : Byte).toNat := ⟨⟨by decide, by decide⟩, by decide⟩
theorem witness_LinkByteReceived_frame :
    let s := withLink1 (fun l => { l with receive := .inFrame, length := 3, bytes := [1] }) closedUp
    s.toPart.inService .link1 .bay ∧ (s.links.get .link1).receive = .inFrame ∧
      (s.links.get .link1).bytes.length + 1 < (s.links.get .link1).length := ⟨⟨by decide, by decide⟩, by decide⟩

theorem witness_CompletedFrameArrives :
    let s := withLink1 (fun l => { l with receive := .inFrame, length := 3, bytes := [6, 20] }) closedUp
    s.toPart.inService .link1 .bay ∧ (s.links.get .link1).receive = .inFrame ∧
      (s.links.get .link1).length = (s.links.get .link1).bytes.length + 1 ∧
      (s.links.get .link1).bytes ++ [0] = (Request.setHoldoff 20).frame := ⟨⟨by decide, by decide⟩, by decide⟩

/-- Link 1 about to complete the frame of these bytes and one more. -/
def completing (bytes : List Byte) (f : Link → Link) : State :=
  withLink1 (fun l => f { l with receive := .inFrame, length := bytes.length + 1, bytes := bytes }) closedUp

theorem witness_CompletedFrameArrives_taken :
    (completing [6, 20] id).toPart.inService .link1 .bay ∧ ((completing [6, 20] id).links.get .link1).busy = false ∧
      mayRequest .bay (.setHoldoff 20) = true ∧ ([6, 20] ++ [0] : List Byte) = (Request.setHoldoff 20).frame ∧
      mayRequest .bay .confirmSections = false ∧ ([] ++ [22] : List Byte) = Request.confirmSections.frame :=
  ⟨⟨by decide, by decide⟩, by decide⟩
theorem witness_CompletedFrameArrives_unknown :
    ((completing [200] id).links.get .link1).busy = false ∧
      ∀ r : Request, ([200] ++ [0] : List Byte).head? = some (byte r.code) → ([200] ++ [0] : List Byte).length ≠ r.frame.length :=
  ⟨by decide, by intro r; cases r <;> simp [Request.code, byte]⟩
theorem witness_CompletedFrameArrives_length :
    ∀ r : Request, ([6] ++ [0] : List Byte).head? = some (byte r.code) → ([6] ++ [0] : List Byte).length ≠ r.frame.length := by
  intro r; cases r <;> simp [Request.code, byte, Request.frame, Request.body, splitHalf]
theorem witness_CompletedFrameArrives_busy :
    ((completing [6, 20] fun l => { l with busy := true }).links.get .link1).busy = true ∧
      ((completing [6, 20] fun l => { l with busy := true }).links.get .link1).waiting = none ∧
      ((completing [6, 20] fun l => { l with busy := true, waiting := some [1] }).links.get .link1).waiting = some [1] := by
  decide
theorem witness_LinkTimersExpire_gap :
    let l := (withLink1 (fun l => { l with receive := .inFrame, length := 3, gapTimer := some 1000005 }) closedUp).links.get .link1
    l.gapTimer = some 1000005 ∧ l.receive = .inFrame := by decide
theorem witness_LinkTimersExpire_quiet :
    let l := (withLink1 (fun l => { l with receive := .quietWait, quietTimer := some 1000005 }) closedUp).links.get .link1
    l.quietTimer = some 1000005 ∧ l.receive = .quietWait := by decide
theorem witness_ResetLinkActs : closedUp.toPart.serves .link1 .bay := serves_local

theorem witness_RaiseLatchesReceivers : NoticeKind.huntOrder ≠ .linkFault ∧ NoticeKind.huntOrder ≠ .ready := by decide

/-- READY alone pending for LOCAL. -/
def readyLatched : State :=
  { closedUp with notices := { closedUp.notices with bay := { closedUp.notices.bay with latched := 4096, line := true } } }

theorem witness_ReadNoticeTakesFirstKind :
    let p := readyLatched.toPart.found .link1 .bay .readNotice
    readyLatched.toPart.serves .link1 .bay ∧ holdsKind (p.notices.get .bay).eligible .ready = true ∧
      ∀ x : NoticeKind, x.priority < NoticeKind.ready.priority → holdsKind (p.notices.get .bay).eligible x = false :=
  ⟨⟨⟨by decide, by decide⟩, by decide⟩, by decide, by intro x; cases x <;> decide⟩
theorem witness_ReadNoticeWithNoneEligible :
    let p := closedUp.toPart.found .link1 .bay .readNotice
    closedUp.toPart.serves .link1 .bay ∧ (p.notices.get .bay).eligible = 0 ∧ LinesTrue p :=
  ⟨serves_local, by decide, by intro m; cases m <;> decide⟩
theorem witness_SetNoticeMaskApplied :
    closedUp.toPart.serves .link1 .bay ∧ 8192 ≤ (8192 : Half).toNat ∧ (8191 : Half).toNat < 8192 := ⟨serves_local, by decide⟩
theorem witness_SetHoldoffApplied :
    readyLatched.toPart.serves .link1 .bay ∧
      ((readyLatched.toPart.found .link1 .bay .readNotice).notices.get .bay).eligible ≠ 0 :=
  ⟨⟨⟨by decide, by decide⟩, by decide⟩, by decide⟩
theorem witness_HoldoffExpiryWeighsLine :
    (({ readyLatched with notices := { readyLatched.notices with
      bay := { readyLatched.notices.bay with holdoffTimer := some 1000020 } } } : State).notices.get .bay).holdoffTimer =
      some 1000020 := by decide

/-- A step of a part at rest lets a millisecond pass. -/
theorem closedUp_steps : step closedUp = .next (closedUp.withPart (passTime closedUp.toPart)) := by rfl

theorem witness_LinesStayTrue : LinesTrue closedUp.toPart ∧ ∃ t, step closedUp = .next t :=
  ⟨by intro m; cases m <;> decide, _, closedUp_steps⟩

theorem witness_BadFrameDiscarded_good : closedUp.started = true ∧ closedUp.intake.loss + 1 < 32 ∧ frame42.tail.length ≠ 10 := by
  decide
theorem witness_BadFrameDiscarded_order :
    closedUp.started = true ∧ closedUp.intake.reference = some 40 ∧ frame42.length = 10 ∧
      ((40 : Byte) - 40 - 1).toNat = 255 ∧ 128 ≤ ((39 : Byte) - 40 - 1).toNat ∧ ((39 : Byte) - 40 - 1).toNat < 255 ∧
      128 ≤ ((169 : Byte) - 40 - 1).toNat := by decide

/-- The part with its loss counter at a value, and its measurement LOST or GOOD. -/
def losing (loss : Nat) (m : MeasureState) : State :=
  { closedUp with intake := { closedUp.intake with loss := loss, state := m } }

/-- The part one count before the loss under G2, in a state of the Sequencer and with a breaker. -/
def losingUnder (a : Active) (base : State) : State :=
  { base with intake := { base.intake with loss := 31 }, posture := { base.posture with active := a } }

theorem witness_BadFrameDiscarded_lost : (losing 32 .lost).intake.state = .lost ∧ 32 ≤ (losing 32 .lost).intake.loss := by decide
theorem witness_BadFrameDiscarded_noTrip :
    (∀ s ∈ [losingUnder (.group .g0) closedUp, losingUnder (.group .g1) closedUp, losingUnder .fallback deadTime],
      s.started = true ∧ s.intake.state = .good ∧ 32 ≤ s.intake.loss + 1 ∧ s.toPart.hasBlock .measure = false ∧
        s.hunt.state.running = false) ∧
      (losingUnder .fallback deadTime).toPart.position ≠ .closed ∧ (losingUnder .fallback deadTime).seq.state = .deadTime := by
  decide
theorem witness_BadFrameDiscarded_trip :
    let reclaiming : State := { closedUp with seq := { closedUp.seq with state := .reclaim } }
    ∀ s ∈ [losingUnder (.group .g2) closedUp, losingUnder .fallback reclaiming],
      s.started = true ∧ s.intake.state = .good ∧ 32 ≤ s.intake.loss + 1 ∧ s.toPart.hasBlock .measure = false ∧
        s.hunt.state.running = false ∧ s.posture.active ≠ .group .g0 ∧ s.posture.active ≠ .group .g1 ∧
        s.toPart.position = .closed ∧ s.mech.order = .none ∧ (s.seq.state = .closed ∨ s.seq.state = .reclaim) := by decide
theorem witness_BadFrameDiscarded_hunt :
    ∀ s ∈ hunts.map (losingUnder (.group .g2)),
      held s.toPart = true ∧ s.started = true ∧ s.intake.state = .good ∧ 32 ≤ s.intake.loss + 1 ∧
        s.toPart.hasBlock .measure = false := by decide
/-- The frame that brings the counter to 32 on a ban day: LOST, and the trip with lockout MEASURE_LOSS (12, the worked loss). -/
theorem test_loss_trips_under_ban :
    after? (exec (.measurementFrame []) (losingUnder (.group .g2) closedUp))
      (fun t => (t.intake.state, t.seq.state, t.seq.forced, t.records.ring.map (·.origin))) =
      some (.lost, .tripping, some .measureLoss, [.measureLoss]) := by decide

theorem witness_FrameAccepted_first : ({ closedUp with intake := Part.reset.intake } : State).started = true ∧
    Part.reset.intake.reference = none := by decide
/-- 127 numbers skipped, the most an accepted frame may skip, and a frame in sequence with a clear valid flag (29) or none
(31), the counter one below 32. -/
theorem witness_FrameAccepted_last :
    closedUp.started = true ∧ closedUp.intake.reference = some 40 ∧ ((168 : Byte) - 40 - 1).toNat = 127 ∧
      ((41 : Byte) - 40 - 1).toNat = 0 ∧ (29 : Byte).getLsbD 1 = false ∧ (losing 31 .good).started = true ∧
      (losing 31 .good).intake.reference = some 40 := by decide

theorem witness_FrameAccepted_good :
    closedUp.started = true ∧ closedUp.intake.reference = some ((41 : Byte) - 1) ∧
      (31 : Byte).getLsbD 0 = closedUp.intake.sourceLive ∧ (31 : Byte).getLsbD 1 = true ∧ (31 : Byte).getLsbD 4 = true ∧
      closedUp.intake.state = .good ∧ closedUp.intake.loss < 32 := by decide
theorem witness_FrameAccepted_lost :
    let s := losing 1 .lost
    s.started = true ∧ s.intake.reference = some ((41 : Byte) - 1) ∧ (31 : Byte).getLsbD 0 = s.intake.sourceLive ∧
      s.intake.state = .lost ∧ s.intake.loss = 1 ∧ (100 + 256 * 0 : Nat) ≠ 65535 ∧
      ({ s with entries := [⟨.measure, .part, 0, 0, none, none, none⟩] } : State).toPart.hasBlock .measure = true := by decide

/-- The source DEAD, and a close that waits for it: the automatic close of shot 1, and the Hunt's test close. -/
def deadSource (s : State) : State := { s with intake := { s.intake with sourceLive := false } }
def closeWaiting : State :=
  { deadTime with seq := { deadTime.seq with state := .closeWait, deadTimer := none, closeWaitTimer := some 1010200 } }
def huntWaiting (due : CloseDue) : State :=
  { ordering with
    hunt := { ordering.hunt with outstanding := none, orderTimer := none, closeDue := due, closeWaitTimer := some 1010000 } }

theorem witness_FrameAccepted_source :
    (∀ s ∈ [deadSource closeWaiting, deadSource (huntWaiting .test)],
      s.started = true ∧ s.intake.reference = some ((41 : Byte) - 1) ∧ s.intake.state = .good ∧ s.intake.loss < 32 ∧
        s.intake.sourceLive = false ∧ (31 : Byte).getLsbD 0 = true ∧ s.mech.energyHigh = true ∧ s.mech.order = .none ∧
        s.toPart.position = .opened ∧ s.toPart.hasBlock .hotLine = false ∧ s.toPart.hasBlock .mechanism = false) ∧
      (closeWaiting.seq.state = .closeWait ∧ closeWaiting.entries = [] ∧ closeWaiting.seq.pendingShot = some 1 ∧
        1 ≤ closeWaiting.toPart.settings.shots.getD 0 ∧ closeWaiting.hunt.closeWaitTimer = none) ∧
      (held (huntWaiting .test).toPart = true ∧ (huntWaiting .test).hunt.closeWaitTimer ≠ none ∧
        (huntWaiting .test).hunt.closeDue = .test) := by decide
/-- A frame that shows the source LIVE places the close that waited for it (04, R62; 07, R137). -/
theorem test_source_live_closes :
    (after? (exec (.measurementFrame [41, 31, 100, 0, 100, 0, 100, 0, 100, 0]) (deadSource closeWaiting))
        (fun t => (t.seq.state, t.mech.closeOutput)),
      after? (exec (.measurementFrame [41, 31, 100, 0, 100, 0, 100, 0, 100, 0]) (deadSource (huntWaiting .test)))
        (fun t => (t.hunt.state, t.mech.closeOutput, t.mech.placer))) =
      (some (.closing, true), some (.testing, true, some .hunt)) := by decide

/-- The part with its frame-due timer at its end, source-live held so often. -/
def silentLink (hold : Nat) : State :=
  { closedUp with intake := { closedUp.intake with frameDue := some 1000015, liveHold := hold } }

theorem witness_MissingFrameStepped :
    ((silentLink 1).intake.frameDue = some 1000015 ∧ (silentLink 1).intake.liveHold < 2) ∧
      ((silentLink 2).intake.frameDue = some 1000015 ∧ 2 ≤ (silentLink 2).intake.liveHold) := by decide
theorem witness_MissingFrameStepped_hunt :
    ∀ s ∈ hunts.map fun h => { h with intake := { (silentLink 1).intake with loss := 31 } },
      held s.toPart = true ∧ s.intake.frameDue = some 1000015 ∧ s.intake.state = .good ∧ 32 ≤ s.intake.loss + 1 ∧
        s.toPart.hasBlock .measure = false := by decide
theorem witness_MeasurementStaysSafe : MeasureSafe closedUp.toPart ∧ ∃ t, step closedUp = .next t :=
  ⟨⟨by decide, by decide, by decide, by decide⟩, _, closedUp_steps⟩
theorem witness_ClearQualityClearsFlags :
    (closedUp.toPart.serves .link1 .bay ∧ Master.bay ≠ .crew) ∧ closedUp.toPart.serves .link3 .crew :=
  ⟨⟨serves_local, by decide⟩, serves_crew⟩

theorem witness_PickedUpExactlyAtPickup :
    (0 < 100 ∧ (reads 100).available = true ∧ (reads 100).value = some 100 ∧ (reads 100).isClipped = false) ∧
      (let c : Channel := ⟨some .clipped, none, 0, true, some 65534⟩
      c.available = true ∧ c.value = some 65534 ∧ c.isClipped = true) := by decide
theorem witness_AccumulatorAccruesOrDecays :
    (Channel.mk none none 2 false none).available = false ∧ (reads 100).multiple 100 = some 64 ∧
      (reads 99).multiple 100 = some 63 ∧ (1 ≤ 4 ∧ 4 ≤ 4 ∧ 5 ≤ 150 ∧ 150 ≤ 150 ∧ 64 ≤ 1280 ∧ 1280 ≤ 1280) := by decide
theorem witness_AccumulatorAccruesOrDecays_counts :
    let reached (c : Channel) (level : Nat) : Prop := c.available = true ∧ (c.isClipped = true ∨ level ≤ c.value.getD 0)
    let set : Settings := { work with highsetLevel := some 100, highsetDelay := some 20 }
    work.highsetLevel.getD 0 = 0 ∧ set.highsetLevel.getD 0 ≠ 0 ∧ (Channel.mk none none 2 false none).available = false ∧
      reached (reads 100) 100 ∧ ¬reached (reads 99) 100 ∧ ¬reached (reads 299) 300 ∧ reached (reads 270) (300 * 9 / 10) ∧
      ¬reached (reads 269) (300 * 9 / 10) := by decide
theorem witness_AccumulatorAccruesOrDecays_quiet :
    (closedUp.elements.mode = .normal ∧ closedUp.toPart.position = .closed) ∧
      ((closing.elements.mode = .normal ∧ closing.mech.order = .close) ∧ ∀ state ∈ [SeqState.tripping, .failed],
        state ∈ [SeqState.tripping, .deadTime, .closeWait, .lockout, .failed]) ∧
      tripping.mech.order = .trip := by decide

/-- Step 197 of the worked case, as the part that Elements step: channel A at 5600 brings the accumulator to TRIP_FULL. -/
def step197 (base : State) : Part :=
  { base.toPart with
    intake := { base.intake with channels := ⟨reads 5600, reads 100, reads 100, reads 100⟩ }
    elements := { base.elements with acc := ⟨999992, 0, 0, 0⟩ } }

/-- The part in CLOSING, the contacts on their way. -/
def stroke : State := { closing with mech := { closing.mech with openMade := false } }

theorem witness_AccumulatorAccruesOrDecays_trips :
    ((step197 closedUp).elements.mode = .normal ∧ (step197 closedUp).position = .closed ∧
      (step197 closedUp).mech.order = .none ∧ (step197 closedUp).seq.state = .closed) ∧
      ((step197 stroke).elements.mode = .normal ∧ (step197 stroke).position = .travel ∧ (step197 stroke).mech.order = .close ∧
        (step197 stroke).mech.placer = some .sequencer ∧ (step197 stroke).seq.state = .closing) ∧
      (reads 5600).pickedUp 2000 = true ∧ stepAcc (reads 5600) 2000 (1, 20) 999992 = 1000000 := by decide
theorem witness_HeldStepKeepsElements :
    openUp.toPart.position ≠ .closed ∧ (openUp.toPart.position = .travel → openUp.mech.order ≠ .close) := by decide
theorem witness_ElementCountsStayBounded : CountsBounded closedUp.elements ∧ ∃ t, step closedUp = .next t :=
  ⟨⟨by decide, by decide, by decide, by decide, by decide, by decide, by decide, by decide, by decide⟩, _, closedUp_steps⟩
theorem witness_OutputsStaySafe : OutputsSafe tripping.toPart ∧ ∃ t, step tripping = .next t :=
  ⟨⟨by decide, by decide, by decide⟩, _, rfl⟩

theorem witness_OpenCompletesTrip_forced :
    let s := { tripping with seq := { tripping.seq with forced := some .manualTrip } }
    s.started = true ∧ ¬(s.mech.openMade = true ∧ s.mech.closedMade = false) ∧ s.mech.order = .trip ∧
      s.mech.placer = some .sequencer ∧ s.mech.settled = some .closed ∧ s.seq.state = .tripping ∧
      s.records.pendingRecord = some 7 ∧ s.seq.forced = some .manualTrip := by decide
theorem witness_OpenCompletesTrip_shot :
    let s := tripping
    s.started = true ∧ ¬(s.mech.openMade = true ∧ s.mech.closedMade = false) ∧ s.mech.order = .trip ∧
      s.mech.placer = some .sequencer ∧ s.mech.settled = some .closed ∧ s.seq.state = .tripping ∧
      s.records.pendingRecord = some 7 ∧ s.seq.forced = none ∧ s.seq.causes = { phA := true } ∧
      s.seq.shotsUsed + 1 ≤ s.toPart.settings.shots.getD 0 ∧ s.entries = [] := by decide
theorem witness_OpenCompletesTrip_refused :
    let spent := { tripping with seq := { tripping.seq with shotsUsed := 2 } }
    let held := { tripping with entries := [⟨.operator, .master .bay, 1, 900, none, none, some .slot1⟩] }
    (spent.seq.forced = none ∧ spent.seq.causes = { phA := true } ∧
      spent.toPart.settings.shots.getD 0 < spent.seq.shotsUsed + 1) ∧
      (held.seq.forced = none ∧ held.seq.causes = { phA := true } ∧ held.entries ≠ [] ∧
        held.seq.shotsUsed + 1 ≤ held.toPart.settings.shots.getD 0) := by decide

/-- The part in TRIPPING on SEF, with auto hunt as given and a table. -/
def sefTripping (auto : Nat) (t : SectionTable) : State :=
  { tripping with
    seq := { tripping.seq with
      lastTrip := some ⟨.elements, none, { sef := true }, ⟨false, false, false⟩, ⟨false, false, false, false⟩⟩ }
    posture := { tripping.posture with groups := tripping.posture.groups.set .g0 (ready { work with autoHunt := some auto }) }
    table := t }

/-- The same table with no switch that can be operated. -/
def fixedSwitches : SectionTable :=
  { sevenSwitches with switches := sevenSwitches.switches.map fun e => { e with operable := false } }

theorem witness_OpenCompletesTrip_offered :
    (sefTripping 0 sevenSwitches).seq.causes.sef = true ∧
      (sefTripping 0 sevenSwitches).toPart.settings.autoHunt ≠ some 1 ∧
      ∀ s ∈ [sefTripping 1 sevenSwitches, sefTripping 1 fixedSwitches],
        s.seq.forced = none ∧ s.seq.causes.sef = true ∧ s.toPart.settings.autoHunt = some 1 ∧
          s.hunt.state.running = false ∧ s.table.state = .ready ∧ s.table.n = some 7 ∧
          s.toPart.settings.huntTestLimit = some 4 := by decide
theorem witness_OpenCompletesTrip_startable :
    ∀ s ∈ [sefTripping 1 sevenSwitches, sefTripping 1 fixedSwitches],
      (∀ j ∈ List.range' 1 7, s.toPart.believed j = .closed) ∧ s.entries = [] ∧ s.posture.level ≠ .ban ∧
        s.posture.silent = false ∧ s.mech.energyHigh = true := by decide
theorem witness_OpenCompletesTrip_probe :
    (sevenSwitches.switch 4).operable = true ∧
      (∀ j ∈ List.range' 1 7, probeScore 0 7 4 < probeScore 0 7 j ∨ (probeScore 0 7 4 = probeScore 0 7 j ∧ 4 ≤ j)) ∧
      ∀ j ∈ List.range' 1 7, (fixedSwitches.switch j).operable = false := by decide
/-- The SEF lockout with auto hunt on is offered, and the hunt starts at the opening (07, R129). -/
theorem test_sef_lockout_offered :
    after? (exec (.contactChange true false) (sefTripping 1 sevenSwitches))
      (fun t => (t.hunt.state, t.hunt.startedBy, t.hunt.probe, t.seq.state, t.seq.lockoutReason)) =
      some (.ordering, .automatic, some 4, .huntHeld, some .tripCause) := by decide
theorem witness_OpenCompletesTrip_closed :
    let manual : State := { closing with
      elements := { closing.elements with closeKind := .manual }, seq := { closing.seq with purpose := .manual } }
    (∀ s ∈ [closing, manual],
      s.started = true ∧ ¬(s.mech.openMade = false ∧ s.mech.closedMade = true) ∧ s.mech.order = .close ∧
        s.mech.placer = some .sequencer ∧ s.mech.settled = some .opened ∧ s.seq.state = .closing) ∧
      (closing.seq.purpose = .automatic ∧ closing.elements.closeKind = .automatic) ∧
      (manual.seq.purpose = .manual ∧ manual.elements.closeKind = .manual) := by decide
/-- The Hunt's close of restoration on its stroke, and its trip in progress with the hand-back pending. -/
def restoreClosing : State :=
  { huntMoving with
    elements := { huntMoving.elements with closeKind := .huntRestore, mode := .normal }
    hunt := { testing.hunt with state := .restoring, lo := 4, probe := none } }
def handingBack (noted : Bool) : State :=
  { huntOpening with
    entries := [], seq := { huntOpening.seq with failureNoted := noted }
    hunt := { huntOpening.hunt with state := .abandoned, handBackPending := true } }

theorem witness_OpenCompletesTrip_hunt :
    (let s := restoreClosing
    s.started = true ∧ s.seq.state = .huntHeld ∧ s.mech.placer = some .hunt ∧ s.mech.order = .close ∧
      ¬(s.mech.openMade = false ∧ s.mech.closedMade = true) ∧ s.mech.settled = some .opened ∧
      s.hunt.state = .restoring ∧ s.elements.closeKind = .huntRestore ∧ s.seq.failureNoted = false) ∧
      ∀ s ∈ [handingBack false, handingBack true],
        s.started = true ∧ s.seq.state = .huntHeld ∧ s.mech.placer = some .hunt ∧ s.mech.order = .trip ∧
          ¬(s.mech.openMade = true ∧ s.mech.closedMade = false) ∧ s.mech.settled = some .closed ∧
          s.hunt.handBackPending = true ∧ s.records.pendingRecord = some 7 := by decide
/-- CLOSED ends restoration and hands the breaker back in CLOSED (07, R143). -/
theorem test_restoration_concludes :
    after? (exec (.contactChange false true) restoreClosing)
      (fun t => (t.hunt.state, t.seq.state, t.entries, t.elements.sotf, t.elements.closeKind)) =
      some (.concluded, .closed, [], some 100, .none) := by decide
theorem witness_ExternalOperationTaken_hunt :
    (let s := testing
    held s.toPart = true ∧ s.started = true ∧ s.mech.order = .none ∧
      ¬(s.mech.openMade = true ∧ s.mech.closedMade = false) ∧ s.mech.settled = some .closed) ∧
      (let s := ordering
      held s.toPart = true ∧ s.started = true ∧ s.mech.order = .none ∧
        ¬(s.mech.openMade = false ∧ s.mech.closedMade = true) ∧ s.mech.settled = some .opened) := by decide
theorem witness_ExternalOperationTaken_open :
    let s := closedUp
    s.started = true ∧ s.mech.order = .none ∧ s.hunt.state.running = false ∧
      ¬(s.mech.openMade = true ∧ s.mech.closedMade = false) ∧ s.mech.settled = some .closed ∧ s.seq.state = .closed := by
  decide
theorem witness_ExternalOperationTaken_close :
    let s := openUp
    s.started = true ∧ s.mech.order = .none ∧ s.hunt.state.running = false ∧
      ¬(s.mech.openMade = false ∧ s.mech.closedMade = true) ∧ s.mech.settled = some .opened ∧ s.seq.state = .lockout := by
  decide
theorem witness_ContactsUnsettled :
    closedUp.started = true ∧ ¬(closedUp.mech.openMade = false ∧ closedUp.mech.closedMade = false) ∧
      ¬(closedUp.mech.openMade = true ∧ closedUp.mech.closedMade = true) := by decide

/-- The part with both watching timers running. -/
def unsettled : State :=
  { closedUp with mech := { closedUp.mech with
    openMade := false, closedMade := false, travelTimer := some 1000300, discrepancyTimer := some 1000300 } }

theorem witness_PositionFailureDeclared :
    unsettled.mech.travelTimer = some 1000300 ∧ unsettled.mech.discrepancyTimer = some 1000300 ∧
      unsettled.seq.state ≠ .huntHeld ∧ unsettled.hunt.state.running = false ∧ unsettled.hunt.handBackPending = false := by
  decide
theorem witness_PositionFailureDeclared_hunt :
    let watched (s : State) : State := { s with mech := { s.mech with
      openMade := false, closedMade := false, travelTimer := some 1000300, discrepancyTimer := some 1000300 } }
    (∀ s ∈ hunts.map watched, held s.toPart = true ∧ s.toPart.hasBlock .mechanism = false) ∧
      (let s := watched (handingBack false)
      s.mech.travelTimer = some 1000300 ∧ s.seq.state = .huntHeld ∧ s.hunt.state.running = false ∧
        s.hunt.handBackPending = true ∧ s.toPart.hasBlock .mechanism = false ∧ s.toPart.hasBlock .hunt = false) := by decide
theorem witness_OrderMaximumTimes_trip :
    tripping.mech.orderTimer = some 1000200 ∧ tripping.mech.placer = some .sequencer ∧ tripping.hunt.state.running = false ∧
      tripping.hunt.handBackPending = false ∧ tripping.mech.order = .trip ∧ tripping.seq.state = .tripping ∧
      tripping.records.pendingRecord = some 7 := by decide
theorem witness_OrderMaximumTimes_close :
    closing.mech.orderTimer = some 1000300 ∧ closing.mech.placer = some .sequencer ∧ closing.hunt.state.running = false ∧
      closing.hunt.handBackPending = false ∧ closing.mech.order = .close ∧ closing.seq.state = .closing := by decide

theorem witness_OrderMaximumTimes_hunt :
    (∀ s ∈ [huntOpening, handingBack false],
      s.mech.orderTimer = some 1000200 ∧ s.mech.placer = some .hunt ∧ s.seq.state = .huntHeld ∧
        s.toPart.hasBlock .mechanism = false ∧ s.mech.order = .trip ∧ s.records.pendingRecord = some 7) ∧
      (huntOpening.hunt.state.running = true ∧ (handingBack false).hunt.state.running = false ∧
        (handingBack false).hunt.handBackPending = true ∧ (handingBack false).toPart.hasBlock .hunt = false) ∧
      ∀ s ∈ [huntClosing, restoreClosing],
        s.mech.orderTimer = some 1000300 ∧ s.mech.placer = some .hunt ∧ s.seq.state = .huntHeld ∧
          s.toPart.hasBlock .mechanism = false ∧ s.mech.order = .close ∧ s.hunt.state.running = true := by decide
/-- An order of the Hunt's that fails hands the breaker back in FAILED, with no trip (07, R146, item 5). -/
theorem test_hunt_order_times_out :
    after? (exec .closeOrderTimeout huntClosing)
      (fun t => (t.seq.state, t.hunt.result.map (·.reason), t.mech.tripOutput, t.entries.map (·.kind))) =
      some (.failed, some .mechanism, false, [.mechanism]) := by decide

theorem witness_EnergyReadyTaken_idle :
    closedUp.mech.energyHigh = !false ∧ closedUp.seq.state ≠ .closeWait ∧ closedUp.hunt.closeWaitTimer = none := by decide
theorem witness_EnergyReadyTaken_closes :
    let s := { deadTime with
      mech := { deadTime.mech with energyHigh := false }
      seq := { deadTime.seq with state := .closeWait, deadTimer := none, closeWaitTimer := some 1010200 } }
    s.mech.energyHigh = !true ∧ s.started = true ∧ s.seq.state = .closeWait ∧ s.entries = [] ∧ s.intake.sourceLive = true ∧
      s.seq.pendingShot = some 1 ∧ 1 ≤ s.toPart.settings.shots.getD 0 ∧ s.mech.order = .none ∧
      s.toPart.position = .opened ∧ s.hunt.closeWaitTimer = none := by decide

/-- The Hunt's close wait on the spring: the close accepted, and refused by each block the list may hold. -/
theorem witness_EnergyReadyTaken_hunt :
    let low (s : State) : State := { s with mech := { s.mech with energyHigh := false } }
    let blocked (k : BlockKind) : State :=
      { low (huntWaiting .test) with entries := [⟨.hunt, .part, 0, 0, none, none, none⟩, ⟨k, .part, 0, 0, none, none, none⟩] }
    (∀ s ∈ [low (huntWaiting .test), low (huntWaiting .restore), low (deadSource (huntWaiting .test)), blocked .hotLine,
        blocked .mechanism],
      s.mech.energyHigh = !true ∧ s.started = true ∧ held s.toPart = true ∧ s.hunt.closeWaitTimer ≠ none ∧
        s.hunt.closeDue ≠ .none ∧ s.mech.order = .none ∧ s.toPart.position = .opened) ∧
      (low (huntWaiting .test)).intake.sourceLive = true ∧
      ((blocked .hotLine).toPart.hasBlock .hotLine = true ∧ (blocked .mechanism).toPart.hasBlock .hotLine = false ∧
        (blocked .mechanism).toPart.hasBlock .mechanism = true) ∧
      ((huntWaiting .test).toPart.hasBlock .hotLine = false ∧ (huntWaiting .test).toPart.hasBlock .mechanism = false) := by
  decide

/-- The part FAILED at a position, with a MECHANISM entry. -/
def failed (m : Mechanism) : State :=
  { closedUp with
    mech := m
    seq := { closedUp.seq with state := .failed }
    entries := [⟨.mechanism, .part, 0, 900, none, none, none⟩] }

theorem witness_ResetMechanismTaken :
    (closedUp.toPart.serves .link3 .crew) ∧
      (tripping.toPart.serves .link1 .bay ∧ (tripping.toPart.found .link1 .bay .resetMechanism).mech.order ≠ .none) ∧
      (unsettled.toPart.serves .link1 .bay ∧ (unsettled.toPart.found .link1 .bay .resetMechanism).mech.order = .none ∧
        (unsettled.toPart.found .link1 .bay .resetMechanism).position = .travel) ∧
      ((failed closedUp.mech).toPart.serves .link1 .bay ∧
        (let p := (failed closedUp.mech).toPart.found .link1 .bay .resetMechanism
        p.mech.order = .none ∧ p.position = .closed ∧ p.seq.state = .failed ∧ p.hasBlock .mechanism = true)) ∧
      ((failed openUp.mech).toPart.serves .link1 .bay ∧
        (let p := (failed openUp.mech).toPart.found .link1 .bay .resetMechanism
        p.mech.order = .none ∧ p.position = .opened ∧ p.seq.state = .failed)) :=
  ⟨serves_crew, ⟨⟨⟨by decide, by decide⟩, by decide⟩, by decide⟩, ⟨⟨⟨by decide, by decide⟩, by decide⟩, by decide⟩,
    ⟨⟨⟨by decide, by decide⟩, by decide⟩, by decide⟩, ⟨⟨⟨by decide, by decide⟩, by decide⟩, by decide⟩⟩

theorem witness_TripRequestPlacesTrip :
    let p := closedUp.toPart.found .link1 .bay .trip
    closedUp.toPart.serves .link1 .bay ∧ p.seq.state = .closed ∧ p.mech.order = .none ∧ p.position ≠ .opened :=
  ⟨serves_local, by decide⟩

/-- The part with the breaker CLOSED and the Sequencer in LOCKOUT or FAILED. -/
def closedIn (state : SeqState) : State := { closedUp with seq := { closedUp.seq with state := state } }

theorem witness_TripRequestPlacesTrip_placed :
    ∀ s ∈ [closedIn .lockout, closedIn .failed, closedIn .reclaim, stroke],
      let p := s.toPart.found .link1 .bay .trip
      p.seq.state ∈ [.closed, .reclaim, .lockout, .failed, .closing] ∧ p.mech.order ≠ .trip ∧
        (p.mech.order = .close → p.mech.placer = some .sequencer) ∧ p.position ≠ .opened := by decide
theorem witness_TripRequestPlacesTrip_ends :
    let p := closing.toPart.found .link1 .bay .trip
    p.seq.state = .closing ∧ p.mech.order = .close ∧ p.mech.placer = some .sequencer ∧ p.position = .opened := by decide
theorem witness_TripRequestPlacesTrip_retry :
    let p := ({ tripping with seq := { tripping.seq with state := .failed } } : State).toPart.found .link1 .bay .trip
    p.seq.state = .failed ∧ p.mech.order = .trip ∧ p.position ≠ .opened := by decide
theorem witness_TripRequestPlacesTrip_hunt :
    let held : State := { testing with seq := ordering.seq }
    let p (s : State) : Part := s.toPart.found .link1 .bay .trip
    ((p ordering).seq.state = .huntHeld ∧ (p ordering).hunt.state.running = true ∧ (p ordering).position = .opened ∧
      (p ordering).mech.order = .none ∧ (p ordering).seq.failureNoted = false) ∧
      ((p held).hunt.state.running = true ∧ (p held).mech.order = .none ∧ (p held).position ≠ .opened) ∧
      (p { held with mech := { held.mech with order := .trip } }).mech.order = .trip ∧
      (p { held with hunt := { held.hunt with state := .abandoned } }).hunt.state.running = false := by decide
theorem witness_TripRequestPlacesTrip_held : ∀ s ∈ hunts, held (s.toPart.found .link1 .bay .trip) = true := by decide
theorem witness_TripRequestWithoutOrder :
    (tripping.toPart.serves .link1 .bay ∧ (tripping.toPart.found .link1 .bay .trip).seq.state = .tripping) ∧
      (deadTime.toPart.serves .link1 .bay ∧ (deadTime.toPart.found .link1 .bay .trip).seq.state = .deadTime) ∧
      (openUp.toPart.serves .link1 .bay ∧ (openUp.toPart.found .link1 .bay .trip).seq.state = .lockout ∧
        (openUp.toPart.found .link1 .bay .trip).position = .opened) :=
  ⟨⟨⟨⟨by decide, by decide⟩, by decide⟩, by decide⟩, ⟨⟨⟨by decide, by decide⟩, by decide⟩, by decide⟩,
    ⟨⟨⟨by decide, by decide⟩, by decide⟩, by decide⟩⟩

theorem serves_open : openUp.toPart.serves .link1 .bay := ⟨⟨by decide, by decide⟩, by decide⟩
theorem witness_CloseRequestTaken_accepted :
    let p := openUp.toPart.found .link1 .bay .close
    openUp.toPart.serves .link1 .bay ∧ p.seq.state = .lockout ∧ p.hasBlock .hotLine = false ∧ p.hasBlock .mechanism = false ∧
      p.intake.state = .good ∧ p.mech.energyHigh = true ∧ p.mech.order = .none ∧ p.position = .opened :=
  ⟨serves_open, by decide⟩
theorem witness_CloseRequestTaken_states :
    (ordering.toPart.serves .link1 .bay ∧ (ordering.toPart.found .link1 .bay .close).seq.state = .huntHeld) ∧
      (closedUp.toPart.serves .link1 .bay ∧ (closedUp.toPart.found .link1 .bay .close).seq.state = .closed) :=
  ⟨⟨⟨⟨by decide, by decide⟩, by decide⟩, by decide⟩, serves_local, by decide⟩

/-- The part in LOCKOUT with one entry of a kind in the list. -/
def blocked (k : BlockKind) : State := { openUp with entries := [⟨k, .part, 0, 0, none, none, none⟩] }

theorem witness_CloseRequestTaken_blocks :
    let p (k : BlockKind) := (blocked k).toPart.found .link1 .bay .close
    ((p .hotLine).seq.state = .lockout ∧ (p .hotLine).hasBlock .hotLine = true) ∧
      ((p .mechanism).seq.state = .lockout ∧ (p .mechanism).hasBlock .hotLine = false ∧
        (p .mechanism).hasBlock .mechanism = true) := by decide
theorem witness_CloseRequestTaken_refusals :
    let p (s : State) := s.toPart.found .link1 .bay .close
    let lost := p { openUp with intake := { openUp.intake with state := .lost, loss := 32 } }
    let low := p { openUp with mech := { openUp.mech with energyHigh := false } }
    let travel := p { openUp with mech := { openUp.mech with openMade := false } }
    (lost.seq.state = .lockout ∧ lost.intake.state = .lost) ∧
      (low.seq.state = .lockout ∧ low.intake.state = .good ∧ low.mech.energyHigh = false) ∧
      (travel.seq.state = .lockout ∧ travel.mech.energyHigh = true ∧ travel.position ≠ .opened ∧
        travel.hasBlock .hotLine = false ∧ travel.hasBlock .mechanism = false) := by decide

theorem witness_DeadTimeExpiryTaken :
    let s := deadTime
    (s.seq.deadTimer = some 1000200 ∧ s.seq.state = .deadTime ∧ s.seq.pendingShot = some 1) ∧
      (s.entries = [] ∧ s.intake.sourceLive = true ∧ s.mech.energyHigh = true ∧ 1 ≤ s.toPart.settings.shots.getD 0 ∧
        s.mech.order = .none ∧ s.toPart.position = .opened) ∧
      (let w := { s with mech := { s.mech with energyHigh := false } }
      w.seq.deadTimer = some 1000200 ∧ w.seq.state = .deadTime ∧ w.mech.energyHigh = false) := by decide
theorem witness_SequencerWaitsEnd :
    (let s := { deadTime.seq with state := .closeWait, deadTimer := none, closeWaitTimer := some 1010200 }
    s.closeWaitTimer = some 1010200 ∧ s.state = .closeWait) ∧
      (let s := { closedUp.seq with state := .reclaim, reclaimTimer := some 1030000 }
      s.reclaimTimer = some 1030000 ∧ s.state = .reclaim) := by decide
theorem witness_RecordWritten :
    (1 ≤ closedUp.records.next ∧ closedUp.records.next ≤ 65535) ∧
      (let r : Records := { closedUp.records with next := 65535 }
      1 ≤ r.next ∧ r.next ≤ 65535) := by decide

/-- Five master entries: the list is full. -/
def fullList : State :=
  { closedUp with entries :=
      ([1, 2, 3, 4, 5] : List Byte).map fun r => ⟨.operator, .master .bay, r, 900, some 30, some 2700, none⟩ }

/-- Whether an entry is of this kind, of CONTROL and of reason 12, as the statements on blocks name it. -/
def ofControl (kind : BlockKind) (e : BlockEntry) : Bool :=
  e.kind = kind && e.owner = .master .control && e.reason = 12

theorem witness_OperatorBlockPlaced_placed :
    closedUp.toPart.serves .link2 .control ∧ Master.control ≠ .crew ∧ 0 < (1 : Half).toNat ∧ (0 : Half).toNat = 0 ∧
      (let p := closedUp.toPart.found .link2 .control (.placeBlock 1 12 1441)
      (∀ e ∈ p.entries, ofControl .operator e = false) ∧ masterCount p.entries < 5 ∧
        freeSlot p.entries = some .slot1 ∧ p.seq.state ≠ .deadTime ∧ p.seq.state ≠ .closeWait) ∧
      (let p := deadTime.toPart.found .link2 .control (.placeBlock 1 12 1440)
      (∀ e ∈ p.entries, ofControl .operator e = false) ∧ masterCount p.entries < 5 ∧ p.seq.state = .deadTime) :=
  ⟨serves_control, by decide⟩
theorem witness_OperatorBlockPlaced_full :
    let p := fullList.toPart.found .link2 .control (.placeBlock 1 12 30)
    fullList.toPart.serves .link2 .control ∧ (∀ e ∈ p.entries, ofControl .operator e = false) ∧ 5 ≤ masterCount p.entries :=
  ⟨⟨⟨by decide, by decide⟩, by decide⟩, by decide⟩
theorem witness_OperatorBlockPlaced_refused :
    closedUp.toPart.serves .link1 .bay ∧ closedUp.toPart.serves .link3 .crew ∧ 2 ≤ (2 : Byte).toNat ∧ Master.crew ≠ .bay ∧
      0 < (1 : Half).toNat := ⟨serves_local, serves_crew, by decide⟩

/-- The part with one entry of CONTROL, reason 12, in the list. -/
def heldByControl (kind : BlockKind) (expiry : Option Nat) (slot : Option SlotId) : State :=
  { closedUp with entries := [⟨kind, .master .control, 12, 900, expiry, expiry.map (900 + 60 * ·), slot⟩] }

theorem witness_OperatorBlockPlaced_refreshed :
    let p (s : State) : Part := s.toPart.found .link2 .control (.placeBlock 1 12 30)
    ((p (heldByControl .operator (some 30) none)).entries.find? (ofControl .operator)).map (·.expiry) = some (some 30) ∧
      freeSlot (p (heldByControl .operator (some 30) none)).entries = some .slot1 ∧
      ((p (heldByControl .operator none (some .slot1))).entries.find? (ofControl .operator)).map
        (fun e => (e.expiry, e.slot)) = some (none, some .slot1) ∧
      ∃ e ∈ (p (heldByControl .hotLine none (some .slot1))).entries, ofControl .hotLine e = true := by decide
/-- An OPERATOR refreshed to an expiry releases its slot, and the answer waits for the write (05, R83, R93). -/
theorem test_refresh_releases_slot :
    after? (exec (.placeBlock .link2 1 12 30) (heldByControl .operator none (some .slot1)))
      (fun t => (t.entries.map fun e => (e.slot, e.placedAt, e.expiry), t.store.queue,
        t.links.link2.answer.map (·.held))) =
      some ([(none, 900, some 30)], [⟨.slot .slot1 none, some .link2⟩], some true) := by decide
theorem witness_HotLinePlacementReleasesClose :
    let p := closing.toPart.found .link3 .crew (.placeBlock 0 7 0)
    closing.toPart.serves .link3 .crew ∧ Master.crew ≠ .bay ∧ p.mech.order = .close ∧ p.mech.placer = some .sequencer ∧
      p.seq.state = .closing ∧ p.hunt.state.running = false ∧ (∀ e ∈ p.entries, e.kind ≠ .hotLine) ∧
      masterCount p.entries < 5 ∧ freeSlot p.entries = some .slot1 := ⟨⟨⟨by decide, by decide⟩, by decide⟩, by decide⟩

/-- What a HOT_LINE of CREW's, reason 7, finds. -/
def crewFinds (s : State) : Part := s.toPart.found .link3 .crew (.placeBlock 0 7 0)

theorem witness_HotLinePlacementReleasesClose_quiet :
    (∀ s ∈ [closedUp, openUp, deadTime, heldByControl .hotLine none (some .slot1)],
      (s.started = true ∧ s.links.link3.role = .held .crew ∧ s.links.link3.busy = false) ∧
        masterCount (crewFinds s).entries < 5 ∧ (∀ e ∈ (crewFinds s).entries, e.owner ≠ .master .crew) ∧
        (crewFinds s).hunt.state.running = false ∧ (crewFinds s).mech.order ≠ .close) ∧
      freeSlot (crewFinds closedUp).entries = some .slot1 ∧
      freeSlot (crewFinds (heldByControl .hotLine none (some .slot1))).entries = some .slot2 ∧
      (crewFinds deadTime).seq.state = .deadTime ∧ (crewFinds openUp).seq.state = .lockout := by decide
theorem witness_HotLinePlacementReleasesClose_hunt :
    let stroke : State := { ordering with
      mech := { ordering.mech with order := .close, placer := some .hunt, orderTimer := some 1000300, closeOutput := true }
      hunt := { testing.hunt with settleCount := 0 } }
    let moving : State := { stroke with mech := { stroke.mech with openMade := false } }
    let opening : State := { testing with mech := { testing.mech with order := .trip, placer := some .hunt } }
    (∀ s ∈ [ordering, stroke, moving, testing, opening],
      let p := crewFinds s
      p.hunt.state.running = true ∧ p.seq.state = .huntHeld ∧ p.seq.failureNoted = false ∧
        freeSlot (p.entries.filter fun e => e.kind ≠ .hunt) = some .slot1) ∧
      (∀ s ∈ [ordering, stroke], s.mech.order ≠ .trip ∧ s.toPart.position = .opened) ∧
      (∀ s ∈ [moving, testing], s.mech.order ≠ .trip ∧ s.toPart.position ≠ .opened) ∧
      (opening.mech.order = .trip ∧ opening.toPart.position ≠ .opened) ∧ stroke.mech.placer = some .hunt := by decide
/-- A HOT_LINE during a hunt's test abandons the hunt and has its breaker tripped (07, R146). -/
theorem test_hot_line_abandons_test :
    after? (exec (.placeBlock .link3 0 7 0) testing)
      (fun t => (t.hunt.result.map (·.reason), t.mech.tripOutput, t.entries.map (·.kind), t.hunt.handBackPending)) =
      some (some .hotLine, true, [.hotLine], true) := by decide
theorem witness_BlockLeavesList_removed :
    (∀ s ∈ [heldByControl .operator (some 30) none, heldByControl .operator none (some .slot1)],
      let p := s.toPart.found .link2 .control (.removeBlock 1 1 12)
      ∃ e ∈ p.entries, ofControl .operator e = true) ∧
      Master.control ≠ .crew ∧ byte (Master.code .control) = 1 ∧
      (∀ e ∈ (heldByControl .operator (some 30) none).entries, e.slot = none ∧ e.moment = some 2700) ∧
      (∀ e ∈ (heldByControl .operator none (some .slot1)).entries, e.slot = some .slot1) := by decide
theorem witness_BlockLeavesList_serves :
    ∀ s ∈ [heldByControl .operator none (some .slot1), heldByControl .hotLine none (some .slot1)],
      (s.started = true ∧ s.links.link2.role = .held .control) ∧ s.links.link2.busy = false := by decide
theorem witness_BlockLeavesList_hotLine :
    let p (s : State) : Part := s.toPart.found .link2 .control (.removeBlock 0 1 12)
    let one := heldByControl .hotLine none (some .slot1)
    let two : State := { one with entries := one.entries ++ [⟨.hotLine, .master .crew, 7, 950, none, none, some .slot2⟩] }
    (∀ s ∈ [one, two], (∃ e ∈ (p s).entries, ofControl .hotLine e = true) ∧
      ∀ e ∈ (p s).entries, ofControl .hotLine e = true → e.slot = some .slot1) ∧
      hotLineCount (p one).entries = 1 ∧ hotLineCount (p two).entries ≠ 1 := by decide
theorem witness_BlockLeavesList_absent :
    closedUp.toPart.serves .link2 .control ∧
      (∀ e ∈ (closedUp.toPart.found .link2 .control (.removeBlock 1 1 12)).entries, ofControl .operator e = false) ∧
      (2 ≤ (2 : Byte).toNat ∧ (0 : Byte).toNat ≠ Master.code .control) := ⟨serves_control, by decide⟩

theorem witness_SelectionStaysTrue : SelectionStands closedUp.posture ∧ ∃ t, step closedUp = .next t :=
  ⟨by unfold SelectionStands; decide, _, closedUp_steps⟩

/-- A part whose inputs have moved since the last selection. -/
def moved (p : Part) (f : Posture → Posture) : Part := { p with posture := f p.posture }

theorem witness_SelectionRecomputed :
    let ban := moved deadTime.toPart fun q => { q with declared := .ban }
    let hot := moved closedUp.toPart fun q => { q with hotLinePresent := true }
    let none_ := moved closedUp.toPart fun q => { q with groups := State.reset.posture.groups }
    ((recompute ban).posture.active = .group .g2 ∧ (recompute ban).posture.level = .ban ∧ ban.posture.level ≠ .ban ∧
      ban.seq.state = .deadTime ∧ ban.hunt.state.running = false) ∧
      ((recompute hot).posture.hotLinePresent = true ∧ (recompute hot).posture.active ≠ hot.posture.active) ∧
      (recompute none_).posture.active = .fallback ∧
      ((recompute closedUp.toPart).posture.level = closedUp.posture.level ∧
        (recompute closedUp.toPart).posture.active = closedUp.posture.active) := by decide
theorem witness_SelectionRecomputed_hunt :
    ∀ p ∈ hunts.map fun s => moved s.toPart fun q => { q with declared := .ban },
      held p = true ∧ p.posture.level ≠ .ban ∧ (recompute p).posture.level = .ban ∧
        (recompute p).posture.active ≠ p.posture.active := by decide
/-- A part whose G0 has been edited, so that G1 becomes active: one shot and no cold load. -/
def toG1 (s : State) (f : Sequencer → Sequencer) : Part :=
  { s.toPart with
    seq := f s.seq
    elements := { s.elements with coldLoad := some 60 }
    posture := { s.posture with groups := s.posture.groups.set .g0 ⟨.editing, some work, some work⟩ } }

theorem witness_SelectionRecomputed_settings :
    let reclaiming (closed : Nat) := toG1 closedUp fun q => { q with state := .reclaim, closeMoment := some closed }
    let waiting (state : SeqState) (opened k : Nat) :=
      toG1 deadTime fun q => { q with state := state, openingMoment := some opened, pendingShot := some k }
    (∀ p ∈ [toG1 closedUp id, reclaiming 970000, waiting .deadTime 999000 1],
      (recompute p).posture.active ≠ p.posture.active ∧ (recompute p).posture.level = p.posture.level ∧
        (recompute p).settings.shots = some 1 ∧ (recompute p).settings.coldLoadMultiplier = some 100 ∧
        (recompute p).settings.deadTime1 = some 1000 ∧ (recompute p).settings.reclaimTime = some 30) ∧
      (970000 + 30 * 1000 ≤ (reclaiming 970000).clock ∧ (reclaiming 970001).clock < 970001 + 30 * 1000) ∧
      (999000 + 1000 ≤ (waiting .deadTime 999000 1).clock ∧ (waiting .closeWait 999001 1).clock < 999001 + 1000) ∧
      ((waiting .deadTime 999000 1).entries = [] ∧ (waiting .deadTime 999000 1).intake.sourceLive = true ∧
        (waiting .deadTime 999000 1).mech.energyHigh = true ∧ (waiting .deadTime 999000 1).mech.order = .none ∧
        (waiting .deadTime 999000 1).position = .opened) ∧
      (toG1 closedUp id).seq.state = .closed := by decide
/-- G0 to G1 with shots 1 while the pending shot is 2 ends the sequence (04, R69). -/
theorem test_fewer_shots_lock_out :
    ((recompute (toG1 deadTime fun q => { q with pendingShot := some 2 })).seq.lockoutReason,
      (recompute (toG1 deadTime id)).elements.coldLoad, (recompute (toG1 deadTime id)).seq.deadTimer) =
      (some .settings, none, some 1000200) := by decide
theorem witness_FireLevelInputsTaken :
    closedUp.toPart.serves .link1 .bay ∧ closedUp.toPart.serves .link2 .control ∧ Master.bay ≠ .crew ∧
      (let p := closedUp.toPart.found .link1 .bay (.setSeason 0)
      Season.fireSeason = p.posture.season ∧ Season.offSeason ≠ p.posture.season) ∧
      (let p := closedUp.toPart.found .link1 .bay (.raiseLocalLevel 1)
      p.posture.localRaise.code < Level.elevated.code ∧ p.posture.localRaise = .none) ∧
      (let s := { closedUp with posture := { closedUp.posture with
        localRaise := .ban, declaredExpiry := some 1200, silenceTimer := some 1800000 } }
      (s.toPart.found .link1 .bay (.raiseLocalLevel 1)).posture.localRaise ≠ .none ∧
        Level.elevated.code ≤ (s.toPart.found .link1 .bay (.raiseLocalLevel 1)).posture.localRaise.code ∧
        s.posture.declaredExpiry = some 1200 ∧ s.posture.silenceTimer = some 1800000) :=
  ⟨serves_local, serves_control, by decide⟩
/-- The part with G1 EMPTY, EDITING and READY, as WRITE SETTING of shots 3 finds it. -/
def writing (x : Group) : Part :=
  ({ closedUp with posture := { closedUp.posture with groups := closedUp.posture.groups.set .g1 x } } : State).toPart.found
    .link1 .bay (.writeSetting 1 11 3)

theorem witness_GroupsWrittenAndConfirmed_write :
    closedUp.toPart.serves .link1 .bay ∧ Master.bay ≠ .crew ∧
      (∀ p ∈ [writing ⟨.empty, none, none⟩, writing ⟨.editing, some work, none⟩, writing (ready work)],
        p.posture.active ≠ .group .g1 ∧ p.posture.select = p.posture ∧ p.posture.active = .group .g0) ∧
      ((writing ⟨.empty, none, none⟩).posture.groups.get .g1).state = .empty ∧
      ((writing ⟨.editing, some work, none⟩).posture.groups.get .g1).working = some work ∧
      ((writing (ready work)).posture.groups.get .g1).image = some work := ⟨serves_local, by decide⟩
/-- Values at the ends of the ranges of R96 and one beyond them; a dead time of 0; a delay that is no multiple of 10. -/
theorem witness_GroupsWrittenAndConfirmed_ranges :
    (∀ x ∈ [(1, 99), (1, 20001), (5, 505), (11, 4), (12, 299), (21, 7), (0, 1), (22, 1)], fieldAccepts x.1 x.2 = false) ∧
      ∀ x ∈ [(1, 100), (1, 20000), (5, 500), (11, 0), (12, 0), (12, 300), (14, 180000), (21, 6)],
        fieldAccepts x.1 x.2 = true := by decide

theorem witness_GroupsWrittenAndConfirmed_posture :
    (1 : Byte) ≠ 0 ∧ 1 ≤ (1 : Half).toNat ∧ (120 : Half).toNat ≤ 120 ∧ (0 : Half).toNat < 1 ∧ 120 < (121 : Half).toNat ∧
      3 < (4 : Byte).toNat := by decide
/-- The silence time is 1 to 120 minutes (R113). -/
theorem test_posture_written :
    (answered? (exec (.writeSetting .link1 5 1 120) closedUp), answered? (exec (.writeSetting .link1 5 1 121) closedUp)) =
      (some [2, 14, 0], some [2, 14, 3]) := by decide

/-- The part with G1 EDITING on a record. -/
def editing (w : Settings) : State :=
  { closedUp with posture := { closedUp.posture with
    groups := { closedUp.posture.groups with g1 := ⟨.editing, some w, none⟩, g3 := ⟨.empty, none, none⟩ } } }

theorem witness_GroupsWrittenAndConfirmed_confirm :
    (editing (guarded 1)).toPart.serves .link1 .bay ∧
      (let p := (editing (guarded 1)).toPart.found .link1 .bay (.confirmGroup 1)
      (p.posture.groups.get .g3).state = .empty ∧ (p.posture.groups.get .g2).state = .ready ∧
        (p.posture.groups.get .g1).state = .editing ∧ (p.posture.groups.get .g1).working = some (guarded 1) ∧
        failingCheck .g1 (guarded 1) = none ∧ failingCheck .g1 work = some (6, 0)) :=
  ⟨⟨⟨by decide, by decide⟩, by decide⟩, by decide⟩

/-- Records that fail each of the six checks of R103 as the first, and one that passes check 5. -/
theorem witness_GroupsWrittenAndConfirmed_checks :
    (guarded 1).field 1 ≠ none ∧ ({ guarded 1 with phasePickup := none } : Settings).field 1 = none ∧
      ({ guarded 1 with highsetLevel := some 2000 } : Settings).highsetLevel.getD 0 ≤ (guarded 1).phasePickup.getD 0 ∧
      (guarded 1).earthPickup.getD 0 ≤ ({ guarded 1 with sefPickup := some 5000 } : Settings).sefPickup.getD 0 ∧
      ({ guarded 1 with deadTime1 := none } : Settings).field 12 = none ∧ (12 : Nat) ≤ 11 + (guarded 1).shots.getD 0 ∧
      (guarded 1).shots ≠ some 0 ∧ ¬(work.shots.getD 0 ≤ 1) ∧
      (guarded 0).shots = some 0 ∧ (guarded 0).autoHunt = some 0 ∧ (guarded 0).coldLoadMultiplier = some 100 := by decide
/-- CONFIRM GROUP answers with the first failing check and the lowest field (06, R103). -/
theorem test_confirm_checks :
    [{ guarded 1 with phasePickup := none }, { guarded 1 with highsetLevel := some 2000 },
        { guarded 1 with sefPickup := some 5000 }, { guarded 1 with deadTime1 := none }].map
      (fun w => answered? (exec (.confirmGroup .link1 1) (editing w))) =
      [some [4, 15, 8, 1, 1], some [4, 15, 8, 2, 0], some [4, 15, 8, 3, 0], some [4, 15, 8, 4, 12]] := by decide

theorem witness_SectionTableWrittenAndConfirmed_write :
    let p := closedUp.toPart.found .link2 .control (.writeSection 0 15 30)
    closedUp.toPart.serves .link2 .control ∧ p.hunt.state.running = false ∧ 1 ≤ (15 : Byte).toNat ∧ (15 : Byte).toNat ≤ 15 ∧
      30 ≤ (30 : Half).toNat ∧ (254 : Byte).toNat ≤ 254 ∧ (1 : Half).toNat ≤ 1 ∧ (29 : Half).toNat < 30 ∧
      15 < (16 : Byte).toNat ∧ 1 < (2 : Half).toNat := ⟨serves_control, by decide⟩
theorem witness_SectionTableWrittenAndConfirmed_running :
    ordering.toPart.serves .link2 .control ∧
      (ordering.toPart.found .link2 .control (.writeSection 1 21 1)).hunt.state.running = true :=
  ⟨⟨⟨by decide, by decide⟩, by decide⟩, by decide⟩
/-- EDITING tables that fail checks 1, 2 and 3, and a header that a running hunt refuses. -/
theorem witness_SectionTableWrittenAndConfirmed_checks :
    let editing : SectionTable := { sevenSwitches with state := .editing }
    let gap : SectionTable := { editing with switches := editing.switches.set 6 ⟨none, false, .unknown⟩ }
    let twice : SectionTable := { editing with switches := editing.switches.set 6 ⟨some 21, true, .unknown⟩ }
    ({ editing with n := none } : SectionTable).failingCheck = some (1, 0) ∧
      ((gap.switch 7).ident = none ∧ (∀ i ∈ List.range' 1 6, (gap.switch i).ident ≠ none) ∧ gap.failingCheck = some (2, 7)) ∧
      ((twice.switch 1).ident = (twice.switch 7).ident ∧ (∀ j ∈ List.range' 1 7, (twice.switch j).ident ≠ none) ∧
        (∀ b ∈ List.range' 1 6, ∀ a ∈ List.range' 1 (b - 1), (twice.switch a).ident ≠ (twice.switch b).ident) ∧
        twice.failingCheck = some (3, 7)) ∧
      (ordering.toPart.found .link2 .control (.writeSection 0 7 120)).hunt.state.running = true := by decide
theorem witness_SectionTableWrittenAndConfirmed_confirm :
    let t : SectionTable := { sevenSwitches with state := .editing }
    t.state = .editing ∧ t.failingCheck = none ∧ sevenSwitches.state = .ready ∧ State.reset.table.state = .empty := by decide

theorem witness_HuntStartOrdersProbe_started :
    let p := huntable.toPart.found .link1 .bay .startHunt
    huntable.toPart.serves .link1 .bay ∧ Master.bay ≠ .crew ∧ p.seq.state = .lockout ∧ p.hunt.state.running = false ∧
      p.table.state = .ready ∧ p.table.n = some 7 ∧ (∀ j ∈ List.range' 1 7, p.believed j = .closed) ∧
      p.hasBlock .hotLine = false ∧ p.hasBlock .mechanism = false ∧ p.hasBlock .measure = false ∧
      p.posture.level ≠ .ban ∧ p.posture.silent = false ∧ p.mech.energyHigh = true ∧ p.position = .opened ∧
      p.settings.huntTestLimit = some 4 ∧ p.hasBlock .hunt = false ∧ (p.table.switch 4).operable = true ∧
      (∀ j ∈ List.range' 1 7, probeScore 0 7 4 < probeScore 0 7 j ∨ (probeScore 0 7 4 = probeScore 0 7 j ∧ 4 ≤ j)) :=
  ⟨⟨⟨by decide, by decide⟩, by decide⟩, by decide⟩
/-- A hunt with every start condition met: a probe among seven, no switch to probe, and no test allowed. -/
theorem witness_HuntStartOrdersProbe_planned :
    let finds (s : State) : Part := s.toPart.found .link1 .bay .startHunt
    let groups : FourGroups Machine.Group := huntable.posture.groups.set .g0 (ready { work with huntTestLimit := some 0 })
    let untested : State := { huntable with posture := { huntable.posture with groups := groups } }
    (∀ p ∈ [finds huntable, finds { huntable with table := fixedSwitches }, finds untested],
      p.seq.state = .lockout ∧ p.hunt.state.running = false ∧ p.table.state = .ready ∧ p.table.n = some 7 ∧
        (∀ j ∈ List.range' 1 7, p.believed j = .closed) ∧ p.entries = [] ∧ p.posture.level ≠ .ban ∧
        p.posture.silent = false ∧ p.mech.energyHigh = true ∧ p.position = .opened ∧ p.mech.order = .none) ∧
      (∀ j ∈ List.range' 1 7, (fixedSwitches.switch j).operable = false) ∧
      untested.toPart.settings.huntTestLimit = some untested.hunt.testsUsed := by decide
theorem witness_HuntStartOrdersProbe_refused :
    (closedUp.toPart.found .link1 .bay .startHunt).seq.state ≠ .lockout ∧
      (let p := ({ ordering with seq := huntable.seq } : State).toPart.found .link1 .bay .startHunt
      p.seq.state = .lockout ∧ p.hunt.state.running = true) := by decide

/-- The part ready for a hunt with one entry of a kind in the list. -/
def huntBlocked (k : BlockKind) : State := { huntable with entries := [⟨k, .part, 0, 0, none, none, none⟩] }

/-- Conditions 3 to 10 of R128, each the first that is not met: its reason is the answer's. -/
theorem witness_HuntStartOrdersProbe_conditions :
    let why (s : State) : Option Why := startRefusal (s.toPart.found .link1 .bay .startHunt)
    why { huntable with table := { sevenSwitches with state := .editing } } = some .tableNotReady ∧
      why { huntable with table := sevenSwitches.withBelieved 7 .opened } = some .switchNotClosed ∧
      (why (huntBlocked .hotLine) = some .hotLine ∧ why (huntBlocked .mechanism) = some .mechanismBlocked ∧
        why (huntBlocked .measure) = some .measureLost) ∧
      why { huntable with posture := { huntable.posture with level := .ban } } = some .fireBan ∧
      why { huntable with posture := { huntable.posture with silent := true } } = some .controlSilent ∧
      why { huntable with mech := { huntable.mech with energyHigh := false } } = some .energyLow := by decide
theorem witness_OpenHuntAbandoned_waits :
    ordering.toPart.serves .link1 .bay ∧
      (let p := ordering.toPart.found .link1 .bay .abortHunt
      p.hunt.state.running = true ∧ p.position = .opened ∧ p.mech.order = .none ∧ p.seq.failureNoted = false) ∧
      (let s := { ordering with hunt := { ordering.hunt with closeWaitTimer := some 1010000 } }
      s.hunt.orderTimer = some 1000500 ∧ s.hunt.outstanding = some ⟨40, 4, 24, .openSwitch⟩ ∧ 1 ≤ 4 ∧
        4 ≤ s.table.switches.length ∧ s.hunt.closeWaitTimer = some 1010000) :=
  ⟨⟨⟨by decide, by decide⟩, by decide⟩, by decide⟩
theorem witness_OpenHuntAbandoned_held :
    (∀ s ∈ hunts, held (s.toPart.found .link1 .bay .abortHunt) = true) ∧
      ∀ s ∈ hunts.map fun h => { h with
          hunt := { h.hunt with
            outstanding := some ⟨40, 4, 24, .openSwitch⟩, orderTimer := some 1000500, closeWaitTimer := some 1010000 } },
        held s.toPart = true ∧ s.hunt.orderTimer = some 1000500 ∧ s.hunt.outstanding = some ⟨40, 4, 24, .openSwitch⟩ ∧
          s.hunt.closeWaitTimer = some 1010000 := by decide
theorem witness_OpenHuntAbandoned_notRunning :
    closedUp.toPart.serves .link1 .bay ∧ (closedUp.toPart.found .link1 .bay .abortHunt).hunt.state.running = false :=
  ⟨serves_local, by decide⟩

/-- The part a report of CONTROL's finds. -/
def reporting (s : State) : Part := s.toPart.found .link2 .control (.reportSwitch 24 2 300)

/-- Whether a position of a part holds switch 24. -/
def holds24 (p : Part) (j : Nat) : Bool := 1 ≤ j && j ≤ p.table.n.getD 0 && (p.table.switch j).ident = some 24

theorem witness_SwitchReportTaken :
    huntable.toPart.serves .link2 .control ∧ 2 < (3 : Byte).toNat ∧ (2 : Byte).toNat ≤ 2 ∧ 255 < (256 : Half).toNat ∧
      (255 : Half).toNat ≤ 255 ∧ (reporting huntable).hunt.state.running = false ∧ holds24 (reporting huntable) 4 = true ∧
      (reporting ordering).hunt.outstanding = some ⟨40, 4, 24, .openSwitch⟩ ∧ (40 : Byte).toNat ≠ (39 : Half).toNat ∧
      (40 : Byte).toNat = (40 : Half).toNat ∧ 24 ≠ (25 : Byte).toNat :=
  ⟨⟨⟨by decide, by decide⟩, by decide⟩, by decide⟩
theorem witness_SwitchReportTaken_notHeld (j : Nat) : holds24 closedUp.toPart j = false := by
  have : closedUp.toPart.table.n.getD 0 = 0 := rfl
  unfold holds24
  rw [this]
  by_cases h : 1 ≤ j
  · simp [show ¬j ≤ 0 from by omega]
  · simp [h]

/-- The hunt that has lo = 4 and brings back the trunk below it, its last order out to switch 24. -/
def restoring : State :=
  { ordering with
    hunt := { ordering.hunt with state := .restoring, lo := 4, probe := none } }

theorem witness_SwitchReportTaken_answered :
    let p := reporting ordering
    p.table.n.getD 0 ≤ p.table.switches.length ∧ p.hunt.state = .ordering ∧ p.hunt.probe = some 4 ∧
      (∀ j ∈ List.range' 1 3, p.believed j = .closed ∧ holds24 p j = false) ∧ p.mech.order = .none ∧
      p.position = .opened ∧ p.mech.energyHigh = true ∧ p.hasBlock .hotLine = false ∧ p.hasBlock .mechanism = false ∧
      p.intake.sourceLive = true ∧ p.seq.failureNoted = false := by decide
theorem witness_SwitchReportTaken_next :
    let p := reporting { ordering with
      table := sevenSwitches.withBelieved 2 .unknown
      hunt := { ordering.hunt with probe := some 5, outstanding := some ⟨40, 4, 24, .closeSwitch⟩ } }
    p.hunt.probe = some 5 ∧ 1 ≤ 2 ∧ 2 < 5 ∧ p.believed 2 ≠ .closed ∧ p.believed 1 = .closed ∧
      (p.table.switch 2).operable = true ∧ p.position = .opened := by decide
theorem witness_SwitchReportTaken_restoring :
    let p := reporting restoring
    p.hunt.state = .restoring ∧ p.hunt.lo = 4 ∧ holds24 p 4 = true ∧ 4 ≤ p.table.switches.length ∧
      (∀ j ∈ List.range' 1 3, p.believed j = .closed ∧ holds24 p j = false) := by decide
theorem witness_SwitchReportTaken_replans :
    let p := reporting ordering
    p.hunt.testLimit = some 4 ∧ p.hunt.testsUsed ≠ 4 ∧ p.hunt.lo < 3 ∧ 3 ≤ p.hunt.hi ∧
      (p.table.switch 3).operable = true ∧ hasPosition (addPosition p.hunt.unusable 4) 3 = false ∧
      p.believed 3 ≠ .opened ∧
      (∀ j ∈ List.range' 1 7, hasPosition (addPosition p.hunt.unusable 4) j = false →
        probeScore 0 7 3 < probeScore 0 7 j ∨ (probeScore 0 7 3 = probeScore 0 7 j ∧ 3 ≤ j)) := by decide
theorem witness_SwitchReportTaken_disturbs :
    let p := reporting { ordering with table := sevenSwitches.withBelieved 4 .opened }
    let q := reporting { testing with table := sevenSwitches.withBelieved 4 .opened }
    (p.hunt.state.running = true ∧ p.hunt.probe = some 4 ∧ p.believed 4 = .opened ∧ holds24 p 4 = true ∧
      p.position = .opened ∧ p.mech.order = .none ∧ p.seq.failureNoted = false) ∧
      (q.hunt.state.running = true ∧ q.believed 4 = .opened ∧ q.position = .closed ∧ q.mech.order = .none) := by decide

/-- The order outstanding while the breaker is OPEN in ORDERING and in RESTORING, and while it is CLOSED. -/
theorem witness_SwitchReportTaken_held :
    let closed := reporting { testing with hunt := ordering.hunt }
    (∀ p ∈ [reporting ordering, reporting restoring, closed], held p = true ∧
      p.hunt.outstanding = some ⟨40, 4, 24, .openSwitch⟩ ∧ p.table.n.getD 0 ≤ p.table.switches.length) ∧
      (reporting ordering).position = .opened ∧ (reporting restoring).position = .opened ∧ closed.position ≠ .opened ∧
      (closed.hunt.state = .ordering ∧ closed.hunt.probe = some 4 ∧ 4 ≤ closed.table.switches.length ∧
        (∀ j ∈ List.range' 1 4, (closed.table.switch j).operable = true) ∧ closed.believed 3 = .closed) := by decide

/-- REPORT SWITCH 24 FAILED, reference 40: the switch is unusable and 3 is the probe, nearest the middle of what is left. -/
theorem test_report_failed_replans :
    after? (exec (.reportSwitch .link2 24 2 40) ordering)
      (fun t => (t.hunt.unusable, t.hunt.probe, t.believed 4)) = some (8, some 3, .unknown) := by decide
theorem witness_TestWindowEndTrips :
    testing.hunt.state = .testing ∧ testing.mech.order = .none ∧ testing.toPart.position ≠ .opened ∧
      testing.hunt.probe = some 4 ∧ testing.hunt.testLimit = some 4 ∧ testing.hunt.lo < 4 ∧ 4 ≤ testing.hunt.hi := by decide

/-- The part TESTING that Elements step, at these counts and with these channels. -/
def testStep (settled window : Nat) (ch : Quad Channel) : Part :=
  { testing.toPart with
    intake := { testing.intake with channels := ch }
    hunt := { testing.hunt with settleCount := settled, windowCount := window } }

/-- Four channels below every pickup; the residual above its own; a phase above its own. -/
def calm : Quad Channel := ⟨reads 100, reads 100, reads 100, reads 40⟩
def earthFault : Quad Channel := { calm with n := reads 60000 }
def phaseFault : Quad Channel := { calm with b := reads 60000 }

theorem witness_TestWindowEndTrips_steps :
    (∀ p ∈ [testStep 4 0 calm, testStep 5 18 calm, testStep 5 19 calm, testStep 4 0 earthFault, testStep 5 18 phaseFault],
      p.elements.mode = .huntTest ∧ p.position = .closed ∧ p.mech.order = .none ∧ p.hunt.state = .testing ∧
        p.hunt.probe = some 4) ∧
      (let st := testing.toPart.settings
      let a := st.phasePickup.getD 0
      let e := st.earthPickup.getD 0
      testing.elements.coldLoad = none ∧ st.highsetLevel = some 0 ∧ (reads 100).atLeast a = false ∧
        (reads 40).atLeast e = false ∧ (reads 60000).atLeast e = true ∧ (reads 60000).atLeast a = true) := by decide
theorem witness_TestWindowEndTrips_stroke :
    let s : Mechanism := { ordering.mech with order := .close, placer := some .hunt, openMade := false, closeOutput := true }
    let t : Part := { testStep 0 0 earthFault with mech := s }
    let r : Part :=
      { restoring.toPart with mech := s, elements := { ordering.elements with closeKind := .huntRestore } }
    (t.elements.mode = .huntTest ∧ t.position = .travel ∧ t.mech.order = .close ∧ t.mech.placer = some .hunt ∧
      t.hunt.state = .testing) ∧
      (r.seq.state = .huntHeld ∧ r.hunt.state = .restoring ∧ r.mech.order = .close ∧ r.mech.placer = some .hunt ∧
        r.position = .travel) ∧
      (let q : Part := { testing.toPart with mech := { testing.mech with order := .trip } }
      q.elements.mode = .huntTest ∧ q.position = .closed ∧ q.mech.order = .trip) := by decide
/-- A phase fault met by a test close abandons; one on the residual alone is PRESENT, range 0 to 3 (07, R140, R141). -/
theorem test_decisions_in_test :
    (elementsStep (testStep 5 18 phaseFault)).hunt.result.map (·.reason) = some .otherFault ∧
      (elementsStep (testStep 4 0 earthFault)).hunt.hi = 3 := by decide

/-- The Hunt's trip in progress after a test, over a range, with so many tests used; the probe is 4. -/
def tested (lo hi used : Nat) (f : Hunt → Hunt) : State :=
  { huntOpening with hunt := f { huntOpening.hunt with lo := lo, hi := hi, testsUsed := used } }

/-- OPENED after a test: the section found, a test limit reached, no candidate left, another probe; and after a first
DOUBTFUL the same probe, or the limit. -/
theorem witness_TestWindowEndTrips_opened :
    let spent := tested 4 7 1 fun h => { h with unusable := 65535 }
    (∀ s ∈ [tested 0 3 1 id, tested 4 7 1 id, tested 4 4 1 id, tested 4 7 4 id, spent, tested 0 7 1 id, tested 0 7 4 id],
      s.started = true ∧ s.mech.placer = some .hunt ∧ s.seq.failureNoted = false ∧ s.mech.order = .trip ∧
        ¬(s.mech.openMade = true ∧ s.mech.closedMade = false) ∧ s.mech.settled = some .closed ∧
        s.hunt.state = .testTrip ∧ s.hunt.handBackPending = false ∧ s.records.pendingRecord = some 7 ∧
        s.hunt.probe = some 4 ∧ s.hunt.testLimit = some 4) ∧
      (∀ j ∈ List.range' 5 3, hasPosition spent.hunt.unusable j = true) ∧ (sevenSwitches.switch 6).operable = true := by
  decide
theorem witness_TestWindowEndTrips_closed :
    let s := huntMoving
    s.started = true ∧ s.mech.placer = some .hunt ∧ s.seq.failureNoted = false ∧ s.mech.order = .close ∧
      ¬(s.mech.openMade = false ∧ s.mech.closedMade = true) ∧ s.mech.settled = some .opened ∧ s.hunt.state = .testing ∧
      s.elements.closeKind = .huntTest := by decide
/-- After CLEAR at 4 of seven the next probe is 6, the middle of 4..7; after PRESENT below switch 1 nothing is restored (07,
R131, R142, R144). -/
theorem test_opened_plans :
    (after? (exec (.contactChange true false) (tested 4 7 1 id)) (fun t => (t.hunt.state, t.hunt.probe)),
      after? (exec (.contactChange true false) (tested 0 0 2 id))
        (fun t => (t.hunt.state, t.seq.state, t.hunt.result.map (·.reason)))) =
      (some (.ordering, some 6), some (.concluded, .lockout, some .sectionFound)) := by decide

/-- A write of each kind, in progress. -/
def storing (w : Write) (k : Option LinkId) : State :=
  { closedUp with store := { closedUp.store with queue := [⟨w, k⟩], writing := true, writeTimer := some 1000040 } }

theorem witness_StoreWriteCompletes :
    ∀ w ∈ [Write.group .g1 (some work), .sections none, .season .offSeason, .slot .slot5 none],
      ∀ k ∈ [none, some LinkId.link1],
        (storing w k).store.queue = ⟨w, k⟩ :: [] ∧ (storing w k).store.writing = true ∧ (storing w k).started = true := by
  decide
/-- An image in which G1, the season and slot 3 are invalid, and slots 1 and 2 hold the same HOT_LINE. -/
def worn : Store :=
  let item : SlotEntry := ⟨.hotLine, .master .crew, 7⟩
  { State.reset.store with
    groups := { State.reset.store.groups with g0 := ⟨some work, true⟩, g1 := ⟨none, false⟩ }
    season := ⟨.offSeason, false⟩
    slots := { State.reset.store.slots with slot1 := ⟨some item, true⟩, slot2 := ⟨some item, true⟩, slot3 := ⟨none, false⟩ } }

/-- A power-up with the contacts OPEN and the straps of BAY, CONTROL and BAY again, nothing damaged. -/
def powerUp : ColdReads := ⟨0, some .bay, some .control, some .bay, true, false, true, []⟩

theorem witness_StartsAfresh :
    (let s : State := { closedUp with store := { worn with queue := [⟨.season .offSeason, none⟩], writing := true } }
    let u : State := { openUp with store := worn }
    s.store.groups = u.store.groups ∧ s.store.sections = u.store.sections ∧ s.store.season = u.store.season ∧
      s.store.slots = u.store.slots ∧ s.pending = u.pending ∧ s.store ≠ u.store) ∧ State.reset.started = false ∧
      State.reset.coldInput = 0 ∧ ({ State.reset with coldInput := 1 } : State).coldInput = 0 + 1 := by decide
/-- The invalid items of an image: G1 EMPTY, FIRE_SEASON, HOT_LINE of CONTROL for slot 3 and one entry for the repeated slot,
with the rewrites in R192's order; a second BAY is DISABLED (05, R94; 08, R175; 11, R197). -/
theorem test_cold_start_restores :
    after? (exec (.coldStart powerUp) { closedUp with store := worn })
      (fun t => ((t.posture.groups.get .g0).state, (t.posture.groups.get .g1).state, t.posture.season,
        t.links.link3.role)) = some (.ready, .empty, .fireSeason, .disabled) ∧
      after? (exec (.coldStart powerUp) { closedUp with store := worn })
        (fun t => t.entries.map fun e => (e.kind, e.owner, e.slot)) =
        some [(.hotLine, .master .crew, some .slot1), (.hotLine, .master .control, some .slot3), (.measure, .part, none)] ∧
      after? (exec (.coldStart powerUp) { closedUp with store := worn }) (fun t => t.store.queue.map (·.write)) =
        some
          [.group .g1 none, .season .fireSeason, .slot .slot2 none, .slot .slot3 (some ⟨.hotLine, .master .control, 0⟩)] := by
  decide
/-- A start-up that has rewrites queued, and one that has none: the first write begins as start-up completes (11, R199). -/
theorem witness_StartsAfresh_queued :
    (let s : State := { State.reset with store := { worn with queue := [⟨.season .fireSeason, none⟩] } }
    s.started = false ∧ s.coldInput = 0 ∧ s.store.queue ≠ [] ∧ s.store.writing = false) ∧
      (State.reset.started = false ∧ State.reset.store.queue = []) := by decide
theorem witness_ReadsChangeNothing :
    closedUp.toPart.serves .link1 .bay ∧ ordering.hunt.outstanding = some ⟨40, 4, 24, .openSwitch⟩ ∧
      (askReadRecord 0 tripping.toPart).code = .done := ⟨serves_local, by decide⟩

end Sys2Proof.Tests
end

/-! RESET MECHANISM (03, R53; 04, R72): a request taken by a FREE link, the announcement of an accepted reset to the Sequencer,
and the answers by what Mechanism finds. -/

section ResetMechanism

namespace Sys2Proof.Machine

/-! ## A request on a FREE link -/

/-- A request's own frame reads back as that request (R178, R187). -/
theorem readRequest_frame_self (r : Request) : readRequest r.frame = some r := by
  cases r
  case setNoticeMask mask => exact congrArg (fun h => some (Request.setNoticeMask h)) (joinHalf_split mask)
  case setHoldoff ms => exact congrArg (fun h => some (Request.setHoldoff h)) (joinHalf_split ms)
  case placeBlock kind reason expiry =>
    exact congrArg (fun h => some (Request.placeBlock kind reason h)) (joinHalf_split expiry)
  case writeSetting target field value =>
    exact congrArg (fun l => some (Request.writeSetting target field l)) (joinLong_split value)
  case writeSection target first second =>
    exact congrArg (fun h => some (Request.writeSection target first h)) (joinHalf_split second)
  case reportSwitch ident state reference =>
    exact congrArg (fun h => some (Request.reportSwitch ident state h)) (joinHalf_split reference)
  all_goals rfl

/-- A FREE link in service takes a request at once, and the answer to it is fixed (R177, R178). -/
theorem request_of_serves {k : LinkId} {m : Master} {p : Part} (h : p.serves k m) (r : Request) :
    request k r p = (weigh k m r (p.found k m r)).1.answer k r (weigh k m r (p.found k m r)).2 := by
  obtain ⟨⟨started, role⟩, free⟩ := h
  simp [request, deliver, takeFrameOn, serve, started, role, free, readRequest_frame_self, Part.found, Part.answer]

/-- The command of a request on a FREE link, weighed and answered (R177, R178). -/
theorem exec_command_of_serves {k : LinkId} {m : Master} {s : State} (h : s.toPart.serves k m) (r : Request) :
    exec (r.command k) s =
      .next (s.withPart ((weigh k m r (s.toPart.found k m r)).1.answer k r
        (weigh k m r (s.toPart.found k m r)).2)) := by
  rw [exec_command, after, request_of_serves h, State.withPart]

/-- A request that the role may not make is answered NO_RIGHT (R181). -/
theorem weigh_refused {m : Master} {r : Request} (h : mayRequest m r = false) (k : LinkId) (p : Part) :
    weigh k m r p = (p, ⟨.noRight, [], false⟩) := by
  simp [weigh, h, Reply.bare]

/-- RESET MECHANISM from LOCAL or CONTROL reaches Mechanism (R53, R181). -/
theorem weigh_resetMechanism {m : Master} (h : m ≠ .crew) (k : LinkId) (p : Part) :
    weigh k m .resetMechanism p = askResetMechanism p := by
  simp [weigh, mayRequest, ownerTakes, h]

/-! ## The announcement to the Sequencer -/

/-- Outside FAILED the announcement is not acted on (R72). -/
theorem seqMechanismReset_of_not_failed {p : Part} (h : p.seq.state ≠ .failed) : seqMechanismReset p = p := if_neg h

/-- In FAILED with the breaker OPEN the Sequencer locks out (R72). -/
theorem seqMechanismReset_of_opened {p : Part} (hf : p.seq.state = .failed) (ho : p.position = .opened) :
    seqMechanismReset p = enterLockout .mechanismReset p := by
  simp [seqMechanismReset, hf, ho]

/-- In FAILED with the breaker CLOSED the Sequencer is CLOSED again (R72). -/
theorem seqMechanismReset_of_closed {p : Part} (hf : p.seq.state = .failed) (hc : p.position = .closed) :
    seqMechanismReset p = enterClosed p := by
  simp [seqMechanismReset, hf, hc]

/-- Entry to LOCKOUT with its reason (R60). -/
theorem enterLockout_seq (r : LockoutReason) (p : Part) : (enterLockout r p).seq = p.seq.lockedOut r := by
  simp [enterLockout, Sequencer.lockedOut, Sequencer.rests]

/-- The announcement keeps what is pending. -/
theorem seqMechanismReset_kept {p : Part} {m : Master} {k : NoticeKind} (h : p.pendingFor m k = true) :
    (seqMechanismReset p).pendingFor m k = true := by
  unfold seqMechanismReset
  split
  · split
    · exact raise_kept _ _ _ _ h
    · exact h
    · exact h
  · exact h

theorem removePart_position (k : BlockKind) (p : Part) : (removePart k p).position = p.position := by
  simp [Part.position]

/-! ## What Mechanism answers -/

theorem askResetMechanism_of_order {p : Part} (h : p.mech.order ≠ .none) :
    askResetMechanism p = (p, ⟨.wrongState, [1], false⟩) := by
  simp [askResetMechanism, h, Reply.wrong, Why.code, byte]

theorem askResetMechanism_of_unsettled {p : Part} (ho : p.mech.order = .none)
    (hp : p.position = .travel ∨ p.position = .discrepant) :
    askResetMechanism p = (p, ⟨.wrongState, [2], false⟩) := by
  rcases hp with hp | hp <;> simp [askResetMechanism, ho, hp, Reply.wrong, Why.code, byte]

/-- An accepted reset: the block leaves the list and the Sequencer is told (R53). -/
theorem askResetMechanism_of_settled {p : Part} (ho : p.mech.order = .none)
    (hp : p.position = .opened ∨ p.position = .closed) :
    askResetMechanism p = (seqMechanismReset (removePart .mechanism p), ⟨.done, [], false⟩) := by
  rcases hp with hp | hp <;> simp [askResetMechanism, ho, hp, Reply.done]

/-- What an accepted reset makes of a part p, apart from the answer (R53, R72). -/
structure MechanismResetDone (p q : Part) : Prop where
  cleared : q.hasBlock .mechanism = false
  entries : q.entries = p.entries.filter (fun e => e.kind ≠ .mechanism)
  blocks : p.hasBlock .mechanism = true → ∀ x : Master, q.pendingFor x .blocks = true
  others : p.seq.state ≠ .failed → q.seq = p.seq
  closed : p.seq.state = .failed → p.position = .closed → q.seq.state = .closed ∧ q.seq.shotsUsed = 0
  opened : p.seq.state = .failed → p.position = .opened →
    q.seq.state = .lockout ∧ q.seq.lockoutReason = some .mechanismReset

/-- The removal and the announcement make of a part what an accepted reset does. -/
theorem mechanismReset_done (p : Part) : MechanismResetDone p (seqMechanismReset (removePart .mechanism p)) where
  cleared := (Part.hasBlock_congr (by simp) _).trans (removePart_hasBlock .mechanism p)
  entries := by simp [removePart_entries]
  blocks hb x := seqMechanismReset_kept (removePart_blocks hb x)
  others hs := by
    rw [seqMechanismReset_of_not_failed (by simpa using hs)]
    simp
  closed hs hp := by
    rw [seqMechanismReset_of_closed (by simpa using hs) ((removePart_position _ _).trans hp)]
    exact ⟨rfl, rfl⟩
  opened hs hp := by
    rw [seqMechanismReset_of_opened (by simpa using hs) ((removePart_position _ _).trans hp), enterLockout_seq]
    exact ⟨rfl, rfl⟩

/-- Settles O39: the rights check, then the rows of R53's table; an accepted reset is `mechanismReset_done`. -/
theorem resetMechanismTaken : Obligations.ResetMechanismTaken := by
  intro k m s h p
  have taken := exec_command_of_serves h .resetMechanism
  change exec (.resetMechanism k) s = _ at taken
  refine ⟨fun hm => ?_, fun hm ho => ?_, fun hm ho hp => ?_, fun hm ho hp => ?_⟩
  · rw [taken, weigh_refused (by simp [mayRequest, hm])]
  · rw [taken, weigh_resetMechanism hm, askResetMechanism_of_order ho]
  · rw [taken, weigh_resetMechanism hm, askResetMechanism_of_unsettled ho hp]
  · rw [weigh_resetMechanism hm, askResetMechanism_of_settled ho hp] at taken
    have reset := mechanismReset_done p
    refine ⟨_, taken, reset.cleared, reset.entries, reset.blocks, reset.others, reset.closed, reset.opened, ?_, ?_⟩
    · simp [Reply.frame, Request.code, AnswerCode.code, byte]
    · simp [p]

end Sys2Proof.Machine

end ResetMechanism

/-! READ NOTICE AND SET HOLDOFF (09, R165 to R167, R170): what each makes of its master's notices and answers, and the
holdoff that a cold start and a link reset give. -/

section HoldoffAndEmptyRead

namespace Sys2Proof.Machine

/-! ## A request with its right -/

/-- A request that the role may make reaches its owner (R178, R181). -/
theorem weigh_allowed {m : Master} {r : Request} (h : mayRequest m r = true) (k : LinkId) (p : Part) :
    weigh k m r p = ownerTakes k m r p := if_pos h

/-! ## The first eligible kind -/

/-- The thirteen kinds have the thirteen priorities (R161). -/
theorem exists_kind_of_priority : ∀ i < 13, ∃ n ∈ allKinds, n.priority = i := by decide

/-- A set that is not empty holds a kind. -/
theorem exists_holdsKind_of_ne_zero {s : KindSet} (h : s ≠ 0) : ∃ n ∈ allKinds, holdsKind s n = true := by
  by_contra empty
  push Not at empty
  refine h (BitVec.eq_of_getLsbD_eq fun i hi => ?_)
  obtain ⟨n, hn, rfl⟩ := exists_kind_of_priority i hi
  simpa [holdsKind] using empty n hn

/-- With something eligible there is a first kind (R165). -/
theorem MasterNotices.exists_first {q : MasterNotices} (h : q.eligible ≠ 0) : ∃ n : NoticeKind, q.first = some n :=
  Option.isSome_iff_exists.mp (List.find?_isSome.mpr (exists_holdsKind_of_ne_zero h))

/-- With nothing eligible the line is released, shown or not (R164). -/
theorem MasterNotices.lineLevel_of_none_eligible {q : MasterNotices} (h : q.eligible = 0) (shown : Bool) :
    q.lineLevel shown = false := by
  simp [MasterNotices.lineLevel, h]

/-! ## READ NOTICE -/

/-- With no kind eligible READ NOTICE leaves the part as it is (R166). -/
theorem askReadNotice_of_none_eligible {m : Master} {p : Part} (h : (p.notices.get m).eligible = 0) :
    askReadNotice m p = (p, Reply.done (noticeBody 255 (p.notices.get m))) := by
  simp [askReadNotice, MasterNotices.first_eq_none _ h]

/-- With a kind eligible READ NOTICE takes one (R165). -/
theorem askReadNotice_of_eligible {m : Master} {p : Part} (h : (p.notices.get m).eligible ≠ 0) :
    ∃ n : NoticeKind, (askReadNotice m p).1 = takeKind m n p := by
  obtain ⟨n, hn⟩ := MasterNotices.exists_first h
  exact ⟨n, by simp [askReadNotice, hn]⟩

/-- A read that takes a kind leaves the holdoff as it was set. -/
theorem takeKind_holdoff (m : Master) (n : NoticeKind) (p : Part) :
    ((takeKind m n p).notices.get m).holdoff = (p.notices.get m).holdoff := by
  simp [takeKind]

/-- A read that takes a kind starts the holdoff timer with the holdoff as it is set then (R167, R170). -/
theorem takeKind_holdoffTimer (m : Master) (n : NoticeKind) (p : Part) :
    ((takeKind m n p).notices.get m).holdoffTimer = p.startedHoldoff (p.notices.get m) := by
  simp [takeKind]

/-! ## The holdoff after a cold start and after a link reset -/

/-- A cold start gives every master the notices of a part that is new (R173). -/
theorem coldStarted_notices (reads : ColdReads) (p : Part) : (coldStarted reads p).notices = Part.reset.notices := by
  simp [coldStarted, startPart]

/-- A link reset gives its master a new holdoff of 20 ms (R174). -/
theorem resetNotices_holdoff (m : Master) (p : Part) : ((resetNotices m p).notices.get m).holdoff = 20 := by
  simp [resetNotices, freshNotices]

/-! ## The statements -/

/-- Settles O16: with nothing eligible no kind is first, so the read leaves the part alone, and a true line is released. -/
theorem readNoticeWithNoneEligible : Obligations.ReadNoticeWithNoneEligible := by
  intro k m s h p noneEligible
  have read := exec_command_of_serves h .readNotice
  rw [weigh_allowed rfl, ownerTakes, askReadNotice_of_none_eligible noneEligible] at read
  exact ⟨read, fun lines => (lines m).trans (MasterNotices.lineLevel_of_none_eligible noneEligible _)⟩

/-- Settles O18: the set itself, the next read's start of the timer, and the two events that give 20 ms. -/
theorem setHoldoffApplied : Obligations.SetHoldoffApplied := by
  refine ⟨fun k m ms s h => ?_, fun k m s h eligible => ?_, fun reads m s => ?_, fun k m s h => ?_⟩
  · have applied := exec_command_of_serves h (.setHoldoff ms)
    rw [weigh_allowed rfl] at applied
    exact applied
  · have read := exec_command_of_serves h .readNotice
    rw [weigh_allowed rfl, ownerTakes] at read
    obtain ⟨n, taken⟩ := askReadNotice_of_eligible eligible
    rw [taken] at read
    exact ⟨_, read, takeKind_holdoff m n _, takeKind_holdoffTimer m n _⟩
  · refine ⟨_, rfl, ?_⟩
    change ((coldStarted reads s.toPart).notices.get m).holdoff = 20
    rw [coldStarted_notices]
    cases m <;> rfl
  · have reset := exec_command_of_serves h .resetLink
    rw [weigh_allowed rfl, ownerTakes] at reset
    exact ⟨_, reset, resetNotices_holdoff m _⟩

end Sys2Proof.Machine

end HoldoffAndEmptyRead

/-! WHAT EVERY WRITE KEEPS, EVERY COMMAND KEEPS. The operations of the part are built from few primitive writes. `Kept I` says
that each of these keeps a property `I` of the part, under the side conditions that the operations meet wherever they write;
the lemmas below carry `I` through the operations, in the order of the model, up to a step. Each invariant of the statements
then owes its primitive writes alone. -/

section KeptByEveryStep

namespace Sys2Proof.Machine

/-- Two states of Elements with the same accumulators and counts. -/
structure SameCounts (e f : Elements) : Prop where
  acc : e.acc = f.acc
  highset : e.highset = f.highset
  sef : e.sef = f.sef
  openCount : e.openCount = f.openCount

/-- A property of the part that every primitive write keeps. -/
structure Kept (I : Part → Prop) : Prop where
  clock : ∀ {p : Part} (t : Nat), I p → I { p with clock := t }
  seq : ∀ {p : Part} (x : Sequencer), I p → I { p with seq := x }
  hunt : ∀ {p : Part} (x : Hunt), I p → I { p with hunt := x }
  records : ∀ {p : Part} (x : Records), I p → I { p with records := x }
  table : ∀ {p : Part} (x : SectionTable), I p → I { p with table := x }
  store : ∀ {p : Part} (x : Store), I p → I { p with store := x }
  posture : ∀ {p : Part} (x : Posture), (SelectionStands p.posture → SelectionStands x) → I p → I { p with posture := x }
  notices : ∀ {p : Part} (m : Master) (n : MasterNotices), I p → I (setNotices m n p)
  holdoff : ∀ {p : Part} (m : Master) (v : Nat), I p →
    I { p with notices := p.notices.set m { p.notices.get m with holdoff := v } }
  link : ∀ {p : Part} (k : LinkId) (l : Link), l.role = (p.links.get k).role → I p → I (setLink k l p)
  elements : ∀ {p : Part} (x : Elements), SameCounts x p.elements → I p → I { p with elements := x }
  elementsOpened : ∀ {p : Part}, I p → I (elementsOpened p)
  elementsRun : ∀ {p : Part}, I p → I (elementsRun p)
  countOpen : ∀ {p : Part}, I p → I (countOpen p)
  readContacts : ∀ {p : Part} (a b : Bool), I p → I (readContacts a b p)
  mech : ∀ {p : Part} (x : Mechanism), x.order = p.mech.order → x.tripOutput = p.mech.tripOutput →
    x.closeOutput = p.mech.closeOutput → I p → I { p with mech := x }
  orderEnds : ∀ {p : Part}, I p → I (endOrder p)
  tripBegins : ∀ {p : Part} (x : Mechanism), p.mech.order = .none → x.order = .trip → x.tripOutput = true →
    x.closeOutput = p.mech.closeOutput → I p → I { p with mech := x }
  closeBegins : ∀ {p : Part} (x : Mechanism), closeRefusal p = none → x.order = .close → x.closeOutput = true →
    x.tripOutput = p.mech.tripOutput → I p → I { p with mech := x }
  entryJoins : ∀ {p : Part} (e : BlockEntry), e.kind ≠ .measure → (e.kind = .hotLine → p.mech.order ≠ .close) → I p →
    I { p with entries := p.entries ++ [e] }
  entriesLeave : ∀ {p : Part} (f : BlockEntry → Bool), (∀ e : BlockEntry, e.kind = .measure → f e = true) → I p →
    I { p with entries := p.entries.filter f }
  entriesChange : ∀ {p : Part} (f : BlockEntry → BlockEntry), (∀ e : BlockEntry, (f e).kind = e.kind) → I p →
    I { p with entries := p.entries.map f }
  intake : ∀ {p : Part} (x : Intake), (MeasureSafe p → MeasureSafe { p with intake := x }) → I p → I { p with intake := x }
  measureJoins : ∀ {p : Part} (x : Intake) (e : BlockEntry), e.kind = .measure →
    (MeasureSafe p → MeasureSafe { p with intake := x, entries := p.entries ++ [e] }) → I p →
    I { p with intake := x, entries := p.entries ++ [e] }
  measureLeaves : ∀ {p : Part} (x : Intake),
    (MeasureSafe p → MeasureSafe { p with intake := x, entries := p.entries.filter (fun e => e.kind ≠ .measure) }) → I p →
    I { p with intake := x, entries := p.entries.filter (fun e => e.kind ≠ .measure) }
  coldStarted : ∀ {p : Part} (r : ColdReads), I (coldStarted r p)
  startedUp : ∀ {p : Part}, I p → I (startedUp p)

/-! ## What the writes lean on -/

/-- The silence timer and its setting are no input of the selection (R112 to R114). -/
theorem SelectionStands.silenceTimer {q : Posture} (x : Option Nat) (h : SelectionStands q) :
    SelectionStands { q with silenceTimer := x } := by
  unfold SelectionStands at h ⊢
  conv_rhs => rw [← h]
  rfl

theorem SelectionStands.silenceMinutes {q : Posture} (x : Nat) (h : SelectionStands q) :
    SelectionStands { q with silenceMinutes := x } := by
  unfold SelectionStands at h ⊢
  conv_rhs => rw [← h]
  rfl

/-- The Store's queue and the posture do not touch each other. -/
theorem queueWrite_posture (w : Write) (k : Option LinkId) (x : Posture) (p : Part) :
    queueWrite w k { p with posture := x } = { queueWrite w k p with posture := x } := by
  unfold queueWrite beginWrite
  dsimp only
  split <;> rfl

/-- What the Sequencer makes of a placement does not touch Intake. -/
theorem seqBlockPlaced_intake (k : BlockKind) (x : Intake) (p : Part) :
    seqBlockPlaced k { p with intake := x } = { seqBlockPlaced k p with intake := x } := by
  unfold seqBlockPlaced
  dsimp only
  split
  · rfl
  · rfl
  · split <;> rfl
  · rfl

/-- A trip placed, answered or in progress leaves no close order in progress (R47, R51). -/
theorem placeTrip_order (by' : Placer) (p : Part) : (placeTrip by' p).1.mech.order ≠ .close := by
  have begun : ∀ q : Part, q.mech.order = .none → (beginTrip by' q).1.mech.order ≠ .close := by
    intro q hq
    unfold beginTrip
    split
    · simp [hq]
    · simp
  unfold placeTrip
  split
  next ho => simp [ho]
  next => exact begun _ (by unfold tripFree tripFreeTaken; split <;> rfl)
  next ho => exact begun _ ho

/-- An abandonment places no close order (R146). -/
theorem abandon_order (reason : HuntReason) (detail : Option HuntDetail) (c : TripCall) {p : Part}
    (h : p.mech.order ≠ .close) : (abandon reason detail c p).mech.order ≠ .close := by
  have trip : ∀ q : Part, (huntTrip c q).1.mech.order ≠ .close := by
    intro q
    have placed := placeTrip_order .hunt q
    unfold huntTrip
    split
    next hq => rw [hq] at placed; exact placed
    next hq => rw [hq] at placed; dsimp only; split <;> simpa using placed
  unfold abandon
  dsimp only
  split
  · simpa using h
  · split
    · simpa using h
    · unfold abandonTrip
      have tripped := trip { abandonStart reason detail p with
        hunt := { (abandonStart reason detail p).hunt with handBackPending := true } }
      split
      next hq => rw [hq] at tripped; simpa using tripped
      next hq => rw [hq] at tripped; exact tripped

theorem abandonIfRunning_order (reason : HuntReason) (detail : Option HuntDetail) (c : TripCall) {p : Part}
    (h : p.mech.order ≠ .close) : (abandonIfRunning reason detail c p).mech.order ≠ .close := by
  unfold abandonIfRunning
  split
  · exact abandon_order _ _ _ h
  · exact h

/-- A HOT_LINE joins the list with no close order in progress (R51, R84). -/
theorem handPlacement_hotLine_order (p : Part) : (handPlacement .hotLine p).mech.order ≠ .close := by
  have released : (hotLineRelease p).mech.order ≠ .close := by
    unfold hotLineRelease
    split
    next =>
      have ended : (closeEnded (endOrder p)).mech.order ≠ .close := by simp [closeEnded, endOrder]
      unfold releasedTaken
      split
      · simpa using ended
      · exact abandonIfRunning_order _ _ _ ended
      · exact ended
    next ho => exact ho
  exact abandonIfRunning_order _ _ _ (by simpa using released)

variable {I : Part → Prop} (K : Kept I)

include K

/-! ## Shared operations -/

theorem keeps_latch (k : NoticeKind) (m : Master) {p : Part} (h : I p) : I (latch k m p) := K.notices _ _ h

theorem keeps_raise (k : NoticeKind) {p : Part} (h : I p) : I (raise k p) := by
  unfold raise
  split
  · exact keeps_latch K _ _ h
  · exact keeps_latch K _ _ (keeps_latch K _ _ (keeps_latch K _ _ h))

theorem keeps_raiseLinkFault (k : LinkId) {p : Part} (h : I p) : I (raiseLinkFault k p) := by
  unfold raiseLinkFault
  split
  · exact keeps_latch K _ _ (keeps_latch K _ _ h)
  · exact keeps_latch K _ _ (keeps_latch K _ _ h)
  · exact keeps_latch K _ _ (keeps_latch K _ _ h)
  · exact h

theorem keeps_writeRecord (f : TripFields) {p : Part} (h : I p) : I (writeRecord f p) := by
  unfold writeRecord
  have recorded := K.records
    { ring := (p.newRecord f :: p.records.ring).take ringSize, next := nextNumber p.records.next
      pendingRecord := some p.records.next } h
  have handed := K.elements { p.elements with episode := none } (by exact ⟨rfl, rfl, rfl, rfl⟩) recorded
  exact keeps_raise K .record handed

theorem keeps_completeRecord (o : OpeningOutcome) {p : Part} (h : I p) : I (completeRecord o p) := by
  unfold completeRecord
  split
  · exact h
  · exact K.records _ h

theorem keeps_beginWrite {p : Part} (h : I p) : I (beginWrite p) := by
  unfold beginWrite
  split
  · exact K.store _ h
  · exact h

theorem keeps_queueWrite (w : Write) (k : Option LinkId) {p : Part} (h : I p) : I (queueWrite w k p) :=
  keeps_beginWrite K (K.store _ h)

theorem keeps_elementsClosed (byOrder : Bool) {p : Part} (h : I p) : I (elementsClosed byOrder p) := by
  unfold elementsClosed
  dsimp only
  split
  · split <;> exact K.elements _ ⟨rfl, rfl, rfl, rfl⟩ h
  · exact K.elements _ ⟨rfl, rfl, rfl, rfl⟩ h

theorem keeps_closeKindNamed (kind : CloseKind) {p : Part} (h : I p) : I (closeKindNamed kind p) :=
  K.elements _ ⟨rfl, rfl, rfl, rfl⟩ h

theorem keeps_closeEnded {p : Part} (h : I p) : I (closeEnded p) := K.elements _ ⟨rfl, rfl, rfl, rfl⟩ h

theorem keeps_elementsHandBack {p : Part} (h : I p) : I (elementsHandBack p) := K.elements _ ⟨rfl, rfl, rfl, rfl⟩ h

theorem keeps_elementsSettings {p : Part} (h : I p) : I (elementsSettings p) := by
  unfold elementsSettings
  split
  · exact K.elements _ ⟨rfl, rfl, rfl, rfl⟩ h
  · exact h

theorem keeps_tripFree {p : Part} (h : I p) : I (tripFree p) := by
  unfold tripFree tripFreeTaken
  split
  · exact K.seq _ (keeps_closeEnded K (K.orderEnds h))
  · exact keeps_closeEnded K (K.orderEnds h)

theorem keeps_beginTrip (by' : Placer) {p : Part} (ho : p.mech.order = .none) (h : I p) : I (beginTrip by' p).1 := by
  unfold beginTrip
  split
  · exact h
  · exact K.tripBegins _ ho rfl rfl rfl h

theorem keeps_placeTrip (by' : Placer) {p : Part} (h : I p) : I (placeTrip by' p).1 := by
  unfold placeTrip
  split
  next => exact h
  next =>
    refine keeps_beginTrip K _ ?_ (keeps_tripFree K h)
    unfold tripFree tripFreeTaken
    split <;> rfl
  next ho => exact keeps_beginTrip K _ ho h

theorem keeps_placeClose (by' : Placer) (kind : CloseKind) {p : Part} (h : I p) : I (placeClose by' kind p).1 := by
  unfold placeClose
  split
  next => exact keeps_closeEnded K h
  next accepted => exact keeps_closeKindNamed K _ (K.closeBegins _ accepted rfl rfl rfl h)

/-! ## The Sequencer's own moves -/

theorem keeps_enterLockout (r : LockoutReason) {p : Part} (h : I p) : I (enterLockout r p) := keeps_raise K _ (K.seq _ h)

theorem keeps_enterFailed {p : Part} (h : I p) : I (enterFailed p) := K.seq _ h

theorem keeps_enterClosed {p : Part} (h : I p) : I (enterClosed p) := K.seq _ h

theorem keeps_seqPositionFailure {p : Part} (h : I p) : I (seqPositionFailure p) := by
  unfold seqPositionFailure
  split
  · exact K.seq _ h
  · exact h
  · exact keeps_enterFailed K h

theorem keeps_seqBlockPlaced (k : BlockKind) {p : Part} (h : I p) : I (seqBlockPlaced k p) := by
  unfold seqBlockPlaced
  split
  · exact keeps_enterLockout K _ h
  · exact keeps_enterLockout K _ h
  · split
    · exact K.seq _ h
    · exact h
  · exact h

theorem keeps_seqHandBack (named : HandBack) {p : Part} (h : I p) : I (seqHandBack named p) := by
  unfold seqHandBack
  split
  · exact keeps_enterFailed K h
  · split
    · exact keeps_enterClosed K h
    · exact keeps_enterLockout K _ h

theorem keeps_enterCloseWait {p : Part} (h : I p) : I (enterCloseWait p) := K.seq _ h

theorem keeps_automaticClose {p : Part} (h : I p) : I (automaticClose p) := by
  unfold automaticClose
  split
  next => exact h
  next k _ =>
    split
    next => exact keeps_enterLockout K _ h
    next =>
      have placed := keeps_placeClose K .sequencer .automatic h
      split
      next q hq => rw [hq] at placed; exact K.seq _ placed
      next q hq =>
        rw [hq] at placed
        split
        · exact keeps_enterCloseWait K placed
        · exact placed
      next q _ _ hq => rw [hq] at placed; exact keeps_enterLockout K _ placed

theorem keeps_deadTimeEnded {p : Part} (h : I p) : I (deadTimeEnded p) := by
  unfold deadTimeEnded
  dsimp only
  split
  · split
    · exact keeps_automaticClose K (K.seq _ h)
    · exact keeps_enterCloseWait K (K.seq _ h)
  · exact K.seq _ h

theorem keeps_seqConditionsChanged {p : Part} (h : I p) : I (seqConditionsChanged p) := by
  unfold seqConditionsChanged
  split
  · exact keeps_automaticClose K h
  · exact h

theorem keeps_closeWaitEnded {p : Part} (h : I p) : I (closeWaitEnded p) := by
  unfold closeWaitEnded
  dsimp only
  split
  · exact keeps_enterLockout K _ (K.seq _ h)
  · exact K.seq _ h

theorem keeps_reclaimEnded {p : Part} (h : I p) : I (reclaimEnded p) := by
  unfold reclaimEnded
  dsimp only
  split
  · exact keeps_raise K _ (keeps_enterClosed K (K.seq _ h))
  · exact K.seq _ h

theorem keeps_seqCloseDone {p : Part} (h : I p) : I (seqCloseDone p) := by
  unfold seqCloseDone
  split
  · split
    · exact keeps_enterClosed K h
    · exact K.seq _ h
  · exact h

theorem keeps_seqCloseFailed {p : Part} (h : I p) : I (seqCloseFailed p) := by
  unfold seqCloseFailed
  split
  · exact keeps_enterFailed K h
  · exact h

theorem keeps_seqReleased {p : Part} (h : I p) : I (seqReleased p) := by
  unfold seqReleased
  split
  · exact keeps_enterLockout K _ h
  · exact h

theorem keeps_seqTripFailed {p : Part} (h : I p) : I (seqTripFailed p) := by
  unfold seqTripFailed
  split
  · exact keeps_enterFailed K h
  · exact h

theorem keeps_seqLevelChanged {p : Part} (h : I p) : I (seqLevelChanged p) := by
  unfold seqLevelChanged
  split
  · exact keeps_enterLockout K _ h
  · exact h

theorem keeps_seqRetimeShot (k : Nat) {p : Part} (h : I p) : I (seqRetimeShot k p) := by
  unfold seqRetimeShot
  split
  · exact keeps_enterLockout K _ h
  · split
    · split
      · exact keeps_deadTimeEnded K h
      · exact h
    · exact K.seq _ h

theorem keeps_seqRetimeReclaim {p : Part} (h : I p) : I (seqRetimeReclaim p) := by
  unfold seqRetimeReclaim
  split
  · exact keeps_reclaimEnded K h
  · exact K.seq _ h

theorem keeps_seqSettingsChanged {p : Part} (h : I p) : I (seqSettingsChanged p) := by
  unfold seqSettingsChanged
  split
  · exact keeps_seqRetimeShot K _ h
  · exact keeps_seqRetimeShot K _ h
  · exact keeps_seqRetimeReclaim K h
  · exact h

theorem keeps_seqMechanismReset {p : Part} (h : I p) : I (seqMechanismReset p) := by
  unfold seqMechanismReset
  split
  · split
    · exact keeps_enterLockout K _ h
    · exact keeps_enterClosed K h
    · exact h
  · exact h

theorem keeps_seqExternalOpen {p : Part} (h : I p) : I (seqExternalOpen p) := by
  unfold seqExternalOpen
  split
  · exact keeps_enterLockout K _ (K.seq _ h)
  · exact keeps_enterLockout K _ (K.seq _ h)
  · exact h

theorem keeps_seqExternalClose {p : Part} (h : I p) : I (seqExternalClose p) := by
  unfold seqExternalClose
  split
  · exact keeps_enterClosed K h
  · exact keeps_enterClosed K h
  · exact keeps_enterClosed K h
  · exact h

/-! ## The Hunt -/

theorem keeps_joinPart {k : BlockKind} (hm : k ≠ .measure) (hl : k ≠ .hotLine) {p : Part} (h : I p) : I (joinPart k p) :=
  keeps_raise K _ (K.entryJoins _ hm (fun hk => absurd hk hl) h)

theorem keeps_removePart {k : BlockKind} (hm : k ≠ .measure) {p : Part} (h : I p) : I (removePart k p) := by
  unfold removePart
  split
  · exact keeps_raise K _ (K.entriesLeave _ (fun e he => by simp [he, hm.symm]) h)
  · exact h

theorem keeps_huntTrip (c : TripCall) {p : Part} (h : I p) : I (huntTrip c p).1 := by
  unfold huntTrip
  have placed := keeps_placeTrip K .hunt h
  split
  next q hq => rw [hq] at placed; exact placed
  next q _ _ hq =>
    rw [hq] at placed
    have written := keeps_raise K .trip (keeps_writeRecord K ⟨.hunt, c.causes, c.requester, c.highsetLanes, c.sotfLanes, 0⟩ placed)
    dsimp only
    split
    · exact keeps_completeRecord K _ written
    · exact written

theorem keeps_handBack (named : HandBack) {p : Part} (h : I p) : I (handBack named p) :=
  keeps_seqHandBack K _ (keeps_elementsHandBack K h)

theorem keeps_handBackPendingDone {p : Part} (h : I p) : I (handBackPendingDone p) := by
  unfold handBackPendingDone
  split
  · exact keeps_handBack K _ (K.hunt _ h)
  · exact h

theorem keeps_abandonStart (reason : HuntReason) (detail : Option HuntDetail) {p : Part} (h : I p) :
    I (abandonStart reason detail p) :=
  keeps_raise K _ (keeps_removePart K (by simp) (K.hunt _ (K.hunt _ h)))

theorem keeps_abandonTrip (c : TripCall) {p : Part} (h : I p) : I (abandonTrip c p) := by
  unfold abandonTrip
  have tripped := keeps_huntTrip K c (K.hunt { p.hunt with handBackPending := true } h)
  split
  next q hq => rw [hq] at tripped; exact keeps_handBackPendingDone K tripped
  next q _ _ hq => rw [hq] at tripped; exact tripped

theorem keeps_abandon (reason : HuntReason) (detail : Option HuntDetail) (c : TripCall) {p : Part} (h : I p) :
    I (abandon reason detail c p) := by
  unfold abandon
  have begun := keeps_abandonStart K reason detail h
  dsimp only
  split
  · exact keeps_handBack K _ begun
  · split
    · exact keeps_handBack K _ begun
    · exact keeps_abandonTrip K _ begun

theorem keeps_abandonIfRunning (reason : HuntReason) (detail : Option HuntDetail) (c : TripCall) {p : Part} (h : I p) :
    I (abandonIfRunning reason detail c p) := by
  unfold abandonIfRunning
  split
  · exact keeps_abandon K _ _ _ h
  · exact h

theorem keeps_huntMechanismPlaced {p : Part} (h : I p) : I (huntMechanismPlaced p) := by
  unfold huntMechanismPlaced
  split
  · exact keeps_abandon K _ _ _ h
  · exact keeps_handBackPendingDone K h

theorem keeps_placeMechanism {p : Part} (h : I p) : I (placeMechanism p) := by
  unfold placeMechanism
  split
  · exact h
  · exact keeps_joinPart K (by simp) (by simp) (keeps_huntMechanismPlaced K (keeps_seqBlockPlaced K _ h))

theorem keeps_placeHunt {p : Part} (h : I p) : I (placeHunt p) := by
  unfold placeHunt
  split
  · exact h
  · exact keeps_joinPart K (by simp) (by simp) (keeps_seqBlockPlaced K _ h)

theorem keeps_issueOrder (k : Nat) (action : SwitchAction) {p : Part} (h : I p) : I (issueOrder k action p) := by
  unfold issueOrder
  split
  · exact keeps_abandon K _ _ _ h
  · split
    · exact keeps_abandon K _ _ _ h
    · exact keeps_raise K _ (K.hunt _ h)

theorem keeps_placeTestClose {p : Part} (h : I p) : I (placeTestClose p) := by
  unfold placeTestClose
  have placed := keeps_placeClose K .hunt .huntTest h
  split
  next q _ hq => rw [hq] at placed; exact keeps_abandon K _ _ _ placed
  next q hq => rw [hq] at placed; exact K.hunt _ placed

theorem keeps_placeRestoreClose {p : Part} (h : I p) : I (placeRestoreClose p) := by
  unfold placeRestoreClose
  have placed := keeps_placeClose K .hunt .huntRestore h
  split
  next q _ hq => rw [hq] at placed; exact keeps_abandon K _ _ _ placed
  next q hq => rw [hq] at placed; exact K.hunt _ placed

theorem keeps_placeDueClose {p : Part} (h : I p) : I (placeDueClose p) := by
  unfold placeDueClose
  split
  · exact h
  · exact keeps_placeTestClose K h
  · exact keeps_placeRestoreClose K h

theorem keeps_closeBecomesDue (due : CloseDue) {p : Part} (h : I p) : I (closeBecomesDue due p) := by
  unfold closeBecomesDue
  have isDue := K.hunt { p.hunt with closeDue := due } h
  dsimp only
  split
  · exact keeps_placeDueClose K isDue
  · exact K.hunt _ h

theorem keeps_huntConditionsChanged {p : Part} (h : I p) : I (huntConditionsChanged p) := by
  unfold huntConditionsChanged
  split
  · exact keeps_placeDueClose K h
  · exact h

theorem keeps_deriveOrder {p : Part} (h : I p) : I (deriveOrder p) := by
  unfold deriveOrder
  split
  · exact h
  · split
    · exact keeps_issueOrder K _ _ h
    · split
      · exact keeps_issueOrder K _ _ h
      · exact keeps_closeBecomesDue K _ h

theorem keeps_conclude (named : HandBack) {p : Part} (h : I p) : I (conclude named p) :=
  keeps_handBack K _ (keeps_raise K _ (keeps_removePart K (by simp) (K.hunt _ (K.hunt _ h))))

theorem keeps_restoreStep {p : Part} (h : I p) : I (restoreStep p) := by
  unfold restoreStep
  split
  · exact keeps_conclude K _ h
  · split
    · exact keeps_issueOrder K _ _ h
    · split
      · exact keeps_issueOrder K _ _ h
      · exact keeps_closeBecomesDue K _ h

theorem keeps_enterRestoration (reason : HuntReason) {p : Part} (h : I p) : I (enterRestoration reason p) :=
  keeps_restoreStep K (K.hunt _ h)

theorem keeps_plan {p : Part} (h : I p) : I (plan p) := by
  unfold plan
  split
  · exact keeps_enterRestoration K _ h
  · split
    · exact keeps_enterRestoration K _ h
    · split
      · exact keeps_enterRestoration K _ h
      · exact keeps_deriveOrder K (K.hunt _ h)

theorem keeps_beginHunt (starter : StartedBy) {p : Part} (h : I p) : I (beginHunt starter p) :=
  keeps_plan K (K.seq _ (keeps_placeHunt K (K.hunt _ h)))

theorem keeps_offerHunt {p : Part} (h : I p) : I (offerHunt p) := by
  unfold offerHunt
  split
  · exact keeps_beginHunt K _ h
  · exact h

theorem keeps_huntOpened {p : Part} (h : I p) : I (huntOpened p) := by
  unfold huntOpened
  split
  · exact keeps_handBackPendingDone K h
  · split
    · split
      · split
        · exact keeps_enterRestoration K _ h
        · exact keeps_deriveOrder K (K.hunt _ h)
      · exact keeps_plan K h
    · exact h

theorem keeps_testResult (r : TestResult) (c : TripCall) {p : Part} (h : I p) : I (testResult r c p) := by
  unfold testResult
  have tripped := keeps_huntTrip K c (K.hunt (applyResult (takenResult p.hunt.doubtfulSeen r) p.hunt) h)
  split
  next q hq => rw [hq] at tripped; exact keeps_huntOpened K tripped
  next q _ _ hq => rw [hq] at tripped; exact tripped

theorem keeps_huntStep (residual : Channel) {p : Part} (h : I p) : I (huntStep residual p) := by
  unfold huntStep
  dsimp only
  split
  · split
    · exact K.hunt _ h
    · split
      · exact keeps_testResult K _ _ (K.hunt _ h)
      · exact K.hunt _ h
  · exact h

theorem keeps_huntDecision (d : Decision) {p : Part} (h : I p) : I (huntDecision d p) := by
  unfold huntDecision
  split
  · split
    · exact keeps_abandon K _ _ _ h
    · split
      · exact keeps_testResult K _ _ h
      · exact h
  · split
    · exact keeps_abandon K _ _ _ h
    · exact h
  · exact h

theorem keeps_huntCloseDone {p : Part} (h : I p) : I (huntCloseDone p) := by
  unfold huntCloseDone
  split
  · exact keeps_conclude K _ h
  · exact h

theorem keeps_weighDisturbance (before : SectionTable) {p : Part} (h : I p) : I (weighDisturbance before p) := by
  unfold weighDisturbance
  split
  · exact keeps_abandon K _ _ _ h
  · exact h

theorem keeps_orderAnswered (o : SwitchOrder) (reported : Believed) {p : Part} (h : I p) : I (orderAnswered o reported p) := by
  unfold orderAnswered
  have ended : I (endSwitchOrder p) := K.hunt _ h
  have next : I (if (endSwitchOrder p).hunt.state = .restoring then restoreStep (endSwitchOrder p)
      else deriveOrder (endSwitchOrder p)) := by
    split
    · exact keeps_restoreStep K ended
    · exact keeps_deriveOrder K ended
  dsimp only
  split
  · exact next
  · exact next
  · split
    · exact keeps_abandon K _ _ _ ended
    · exact keeps_plan K (K.hunt _ ended)
  · exact keeps_abandon K _ _ _ ended

theorem keeps_orderTimerEnded {p : Part} (h : I p) : I (orderTimerEnded p) := by
  unfold orderTimerEnded
  split
  · exact keeps_abandonIfRunning K _ _ _ (K.hunt _ (K.table _ h))
  · exact K.hunt _ h

theorem keeps_huntCloseWaitEnded {p : Part} (h : I p) : I (huntCloseWaitEnded p) :=
  keeps_abandonIfRunning K _ _ _ (K.hunt _ h)

/-! ## The Sequencer's trips -/

theorem keeps_lockoutOnCause {p : Part} (h : I p) : I (lockoutOnCause p) := by
  unfold lockoutOnCause
  have locked := keeps_enterLockout K .tripCause h
  dsimp only
  split
  · exact keeps_offerHunt K locked
  · exact locked

theorem keeps_chooseShot {p : Part} (h : I p) : I (chooseShot p) := by
  unfold chooseShot
  split
  · exact keeps_enterLockout K _ h
  · split
    · exact keeps_lockoutOnCause K h
    · split
      · exact keeps_enterLockout K _ h
      · split
        · exact keeps_enterLockout K _ h
        · exact K.seq _ h

theorem keeps_seqOpened {p : Part} (h : I p) : I (seqOpened p) := by
  unfold seqOpened
  split
  · exact keeps_chooseShot K (K.seq _ h)
  · exact h

theorem keeps_tripAccepted (last : LastTrip) (forced : Option Forced) {p : Part} (h : I p) :
    I (tripAccepted last forced p) :=
  K.seq _ (keeps_raise K _ (keeps_writeRecord K _ (K.seq _ h)))

theorem keeps_seqTrip (last : LastTrip) (forced : Option Forced) {p : Part} (h : I p) : I (seqTrip last forced p).1 := by
  unfold seqTrip
  have placed := keeps_placeTrip K .sequencer h
  split
  next q hq => rw [hq] at placed; exact keeps_tripAccepted K _ _ placed
  next q hq =>
    rw [hq] at placed
    exact keeps_seqOpened K (keeps_completeRecord K _ (keeps_tripAccepted K _ _ placed))
  next q hq => rw [hq] at placed; exact placed

theorem keeps_seqDecision (d : Decision) {p : Part} (h : I p) : I (seqDecision d p) := by
  unfold seqDecision
  split
  · exact keeps_seqTrip K _ _ h
  · exact keeps_seqTrip K _ _ h
  · exact keeps_seqTrip K _ _ h
  · exact keeps_huntDecision K _ h
  · exact h

theorem keeps_seqMeasureLoss {p : Part} (h : I p) : I (seqMeasureLoss p) := by
  unfold seqMeasureLoss
  split
  · exact keeps_seqTrip K _ _ h
  · exact keeps_seqTrip K _ _ h
  · exact K.seq _ h
  · split
    · exact keeps_seqTrip K _ _ h
    · exact h
  · exact h

theorem keeps_seqTripRequest (m : Master) {p : Part} (h : I p) : I (seqTripRequest m p).1 := by
  unfold seqTripRequest
  have placed := keeps_seqTrip K (manualTripOf m) (some .manualTrip) h
  dsimp only
  split
  · exact placed
  · exact placed
  · exact placed
  · exact K.seq _ h
  · exact keeps_enterLockout K _ h
  · exact keeps_enterLockout K _ h
  · split
    · exact h
    · exact placed
  · exact keeps_abandonIfRunning K _ _ _ h
  · split
    · exact h
    · exact placed

/-! ## Posture -/

theorem keeps_announceMoves (levelMoved settingsMoved : Bool) {p : Part} (h : I p) :
    I (announceMoves levelMoved settingsMoved p) := by
  have level : I (if levelMoved then announceLevel p else p) := by
    split
    · unfold announceLevel huntLevelChanged
      split
      · exact keeps_abandonIfRunning K _ _ _ (keeps_seqLevelChanged K h)
      · exact keeps_seqLevelChanged K h
    · exact h
  have settings : I (if settingsMoved then announceSettings (if levelMoved then announceLevel p else p)
      else if levelMoved then announceLevel p else p) := by
    split
    · exact keeps_seqSettingsChanged K (keeps_elementsSettings K level)
    · exact level
  unfold announceMoves
  dsimp only
  split
  · exact keeps_raise K _ settings
  · exact settings

/-- A recomputation forms what it writes from the inputs it finds, so these may have been set just before. -/
theorem keeps_recompute (x : Posture) {p : Part} (h : I p) : I (recompute { p with posture := x }) := by
  have selected := K.posture x.select (fun _ => rfl) h
  exact keeps_announceMoves K _ _ selected

theorem keeps_controlHeard {p : Part} (h : I p) : I (controlHeard p) := by
  unfold controlHeard
  dsimp only
  split
  · exact keeps_recompute K _ h
  · exact K.posture _ (SelectionStands.silenceTimer _) h

theorem keeps_heard (m : Master) {p : Part} (h : I p) : I (heard m p) := by
  unfold heard
  split
  · exact keeps_controlHeard K h
  · exact h

theorem keeps_silenceEnded {p : Part} (h : I p) : I (silenceEnded p) := keeps_recompute K _ h

theorem keeps_declarationEnded {p : Part} (h : I p) : I (declarationEnded p) := keeps_recompute K _ h

theorem keeps_writeGroup (g : GroupId) (number v : Nat) {p : Part} (h : I p) : I (writeGroup g number v p).1 := by
  unfold writeGroup setGroup
  split
  · exact h
  · split
    · exact h
    · exact keeps_raise K .settings (keeps_recompute K _ h)

theorem keeps_writePosture (number v : Nat) {p : Part} (h : I p) : I (writePosture number v p).1 := by
  unfold writePosture
  split
  · have set := K.posture { p.posture with silenceMinutes := v } (SelectionStands.silenceMinutes v) h
    exact keeps_raise K .settings set
  · exact h

theorem keeps_askWriteSetting (target field : Byte) (value : Long) {p : Part} (h : I p) :
    I (askWriteSetting target field value p).1 := by
  unfold askWriteSetting
  split
  · exact keeps_writeGroup K _ _ _ h
  · exact keeps_writePosture K _ _ h
  · exact h
  · exact h

theorem keeps_confirmed (k : LinkId) (g : GroupId) (s : Settings) {p : Part} (h : I p) : I (confirmed k g s p).1 := by
  unfold confirmed setGroup
  rw [queueWrite_posture]
  exact keeps_raise K .settings (keeps_recompute K _ (keeps_queueWrite K _ _ h))

theorem keeps_askConfirmGroup (k : LinkId) (group : Byte) {p : Part} (h : I p) : I (askConfirmGroup k group p).1 := by
  unfold askConfirmGroup
  split
  · unfold confirmGroup
    split
    · exact h
    · exact h
    · split
      · exact h
      · exact keeps_confirmed K _ _ _ h
  · exact h

theorem keeps_askSetSeason (k : LinkId) (season : Byte) {p : Part} (h : I p) : I (askSetSeason k season p).1 := by
  unfold askSetSeason
  split
  · exact h
  · split
    · exact h
    · rw [queueWrite_posture]
      exact keeps_recompute K _ (keeps_queueWrite K _ _ h)

theorem keeps_askDeclare (level hours : Byte) {p : Part} (h : I p) : I (askDeclare level hours p).1 := by
  unfold askDeclare
  split
  · exact h
  · exact keeps_recompute K _ h
  · split
    · exact h
    · exact keeps_recompute K _ h

theorem keeps_askRaiseLocal (level : Byte) {p : Part} (h : I p) : I (askRaiseLocal level p).1 := by
  unfold askRaiseLocal
  split
  · exact h
  · exact h
  · split
    · exact keeps_recompute K _ h
    · exact h

theorem keeps_askClearLocal {p : Part} (h : I p) : I (askClearLocal p).1 := by
  unfold askClearLocal
  split
  · exact h
  · exact keeps_recompute K _ h

/-! ## Blocks -/

theorem keeps_writeSlot (n : Option SlotId) (x : Option SlotEntry) (k : Option LinkId) {p : Part} (h : I p) :
    I (writeSlot n x k p) := by
  unfold writeSlot
  split
  · exact keeps_queueWrite K _ _ h
  · exact h

theorem keeps_hotLineRelease {p : Part} (h : I p) : I (hotLineRelease p) := by
  unfold hotLineRelease
  split
  · have released := keeps_closeEnded K (K.orderEnds h)
    unfold releasedTaken
    split
    · exact keeps_seqReleased K released
    · exact keeps_abandonIfRunning K _ _ _ released
    · exact released
  · exact h

theorem keeps_handPlacement (kind : BlockKind) {p : Part} (h : I p) : I (handPlacement kind p) := by
  unfold handPlacement
  split
  · exact keeps_abandonIfRunning K _ _ _ (keeps_seqBlockPlaced K _ (keeps_hotLineRelease K h))
  · exact keeps_seqBlockPlaced K _ h

theorem keeps_joinEntry {e : BlockEntry} {p : Part} (hm : e.kind ≠ .measure)
    (hl : e.kind = .hotLine → p.mech.order ≠ .close) (h : I p) : I (joinEntry e p) := by
  unfold joinEntry
  have joined := K.entryJoins e hm hl h
  dsimp only
  split
  · exact keeps_recompute K _ joined
  · exact joined

theorem keeps_placeNew (k : LinkId) (m : Master) {kind : BlockKind} (hk : kind ≠ .measure) (reason : Byte)
    (expiry : Option Nat) {p : Part} (h : I p) : I (placeNew k m kind reason expiry p) := by
  have joined : I (joinEntry ((handPlacement kind p).newEntry kind m reason expiry) (handPlacement kind p)) := by
    refine keeps_joinEntry K hk (fun hl => ?_) (keeps_handPlacement K _ h)
    obtain rfl : kind = .hotLine := hl
    exact handPlacement_hotLine_order p
  exact keeps_raise K .blocks (keeps_writeSlot K _ _ _ joined)

theorem keeps_refreshOperator (k : LinkId) (e : BlockEntry) (expiry : Option Nat) {p : Part} (h : I p) :
    I (refreshOperator k e expiry p) := by
  have mapped : I { p with
      entries := p.entries.map fun x => if x.named e.kind e.owner e.reason then p.refreshedEntry e expiry else x } := by
    refine K.entriesChange _ (fun x => ?_) h
    split
    next named =>
      simp only [BlockEntry.named, Bool.and_eq_true, decide_eq_true_eq] at named
      exact named.1.1.symm
    next => rfl
  have stored : ∀ taken, I (refreshWrite k e expiry taken { p with
      entries := p.entries.map fun x => if x.named e.kind e.owner e.reason then p.refreshedEntry e expiry else x }) := by
    intro taken
    unfold refreshWrite
    split
    · exact keeps_writeSlot K _ _ _ mapped
    · exact keeps_writeSlot K _ _ _ mapped
    · exact mapped
  unfold refreshOperator
  dsimp only
  split
  · exact stored _
  · exact keeps_raise K _ (stored _)

theorem keeps_askPlaceBlock (k : LinkId) (m : Master) (kind reason : Byte) (expiry : Half) {p : Part} (h : I p) :
    I (askPlaceBlock k m kind reason expiry p).1 := by
  unfold askPlaceBlock
  split
  next b _ =>
    split
    next allowed =>
      have hb : b ≠ .measure := by rintro rfl; simp [mayPlace] at allowed
      unfold placeKind
      split
      · exact h
      · split
        · unfold refresh
          split
          · exact keeps_refreshOperator K _ _ _ h
          · exact h
        · split
          · exact h
          · exact keeps_placeNew K _ _ hb _ _ h
    next => exact h
  next => exact h

theorem keeps_removeEntry {e : BlockEntry} (hk : e.kind ≠ .measure) (k : Option LinkId) {p : Part} (h : I p) :
    I (removeEntry e k p) := by
  have left : I (leaveEntry e p) := by
    unfold leaveEntry
    have filtered : I { p with entries := p.entries.filter fun x => !x.named e.kind e.owner e.reason } :=
      K.entriesLeave _ (fun x hx => by simp [BlockEntry.named, hx, hk.symm]) h
    dsimp only
    split
    · exact keeps_recompute K _ filtered
    · exact filtered
  exact keeps_raise K _ (keeps_writeSlot K _ _ _ left)

theorem keeps_askRemoveBlock (k : LinkId) (m : Master) (kind owner reason : Byte) {p : Part} (h : I p) :
    I (askRemoveBlock k m kind owner reason p).1 := by
  unfold askRemoveBlock
  split
  next b _ =>
    split
    next allowed =>
      have hb : b ≠ .measure := by rintro rfl; simp [mayRemove] at allowed
      unfold removeKind
      split
      · exact h
      · split
        next => exact h
        next e he => exact keeps_removeEntry K (by rwa [(findEntry_named he).1]) _ h
    next => exact h
  next => exact h

theorem keeps_blockExpired (m : Master) (reason : Byte) {p : Part} (h : I p) : I (blockExpired m reason p) := by
  unfold blockExpired
  split
  next => exact h
  next e he =>
    split
    · exact h
    · exact keeps_removeEntry K (by simp [(findEntry_named he).1]) _ (K.clock _ h)

/-! ## Elements on a frame step -/

theorem keeps_sotfEnded {p : Part} (h : I p) : I (sotfEnded p) := K.elements _ ⟨rfl, rfl, rfl, rfl⟩ h

theorem keeps_coldLoadEnded {p : Part} (h : I p) : I (coldLoadEnded p) := K.elements _ ⟨rfl, rfl, rfl, rfl⟩ h

theorem keeps_quietEnded {p : Part} (h : I p) : I (quietEnded p) := K.elements _ ⟨rfl, rfl, rfl, rfl⟩ h

theorem keeps_runningStep {p : Part} (h : I p) : I (runningStep p) := by
  have handed : ∀ (mode : Mode) (c : Channel) {q : Part}, I q → I (handStep mode c q) := by
    intro mode c q hq
    cases mode
    · exact hq
    · exact keeps_huntStep K _ hq
  have routed : ∀ (mode : Mode) (d : Decision) {q : Part}, I q → I (routeDecision mode d q) := by
    intro mode d q hq
    unfold routeDecision
    split
    · exact hq
    · cases mode
      · exact keeps_seqDecision K _ hq
      · exact keeps_huntDecision K _ hq
  have counted : ∀ (mode : Mode) {q : Part}, I q → I (countWindows mode q) := by
    intro mode q hq
    cases mode
    · exact K.elements _ ⟨rfl, rfl, rfl, rfl⟩ hq
    · exact hq
  exact counted _ (routed _ _ (handed _ _ (K.elementsRun h)))

theorem keeps_elementsStep {p : Part} (h : I p) : I (elementsStep p) := by
  unfold elementsStep
  dsimp only
  split
  · exact keeps_runningStep K (K.countOpen h)
  · exact K.countOpen h

theorem keeps_huntWindowEnded {p : Part} (h : I p) : I (huntWindowEnded p) := by
  unfold huntWindowEnded
  split
  · exact keeps_testResult K _ _ (K.hunt _ h)
  · exact h

/-! ## Measurement Intake -/

/-- Intake's own state but the counter and the measurement state may be written freely. -/
theorem keeps_intake (x : Intake) {p : Part} (hl : x.loss = p.intake.loss) (hs : x.state = p.intake.state) (h : I p) :
    I { p with intake := x } :=
  K.intake x (fun safe => ⟨by simpa [hl] using safe.bounded, by simpa [hl, hs] using safe.good,
    by simpa [hl, hs] using safe.lost, by
      change p.hasBlock .measure = true ↔ x.state = .lost
      rw [hs]
      exact safe.block⟩) h

theorem keeps_enterLost {p : Part} (x : Intake) (hl : x.loss = 32) (h : I p) : I (enterLost { p with intake := x }) := by
  have placed : I (placeMeasure { p with intake := { x with state := .lost } }) := by
    unfold placeMeasure
    split
    next present =>
      refine K.intake _ (fun _ => ⟨?_, ?_, ?_, ?_⟩) h
      · simp [hl]
      · simp
      · simp [hl]
      · exact iff_of_true present rfl
    next =>
      rw [seqBlockPlaced_intake]
      refine keeps_raise K .blocks (K.measureJoins (p := seqBlockPlaced .measure p) _ _ rfl (fun _ => ⟨?_, ?_, ?_, ?_⟩)
        (keeps_seqBlockPlaced K .measure h))
      · simp [hl]
      · simp
      · simp [hl]
      · simp [Part.hasBlock]
  refine keeps_abandonIfRunning K _ _ _ ?_
  have raised := keeps_raise K .measureLoss placed
  unfold askLossTrip
  split
  · exact keeps_seqMeasureLoss K raised
  · exact raised

theorem keeps_addLoss (n : Nat) {p : Part} (h : I p) : I (addLoss n p) := by
  unfold addLoss
  dsimp only
  split
  next lost =>
    simp only [Bool.and_eq_true, decide_eq_true_eq] at lost
    exact keeps_enterLost K _ lost.1 h
  next notLost =>
    simp only [Bool.and_eq_true, decide_eq_true_eq, not_and] at notLost
    refine K.intake _ (fun safe => ⟨?_, ?_, ?_, safe.block⟩) h
    · simp [counterFull]
    · intro good
      have := safe.bounded
      simp only [counterFull] at notLost ⊢
      have := mt notLost (not_not.mpr good)
      omega
    · intro lost
      have := safe.lost lost
      simp only [counterFull]
      omega

theorem keeps_dropLoss {p : Part} (h : I p) : I (dropLoss p) := by
  unfold dropLoss
  dsimp only
  split
  next back =>
    simp only [Bool.and_eq_true, decide_eq_true_eq] at back
    unfold enterGood removePart
    refine keeps_raise K _ ?_
    split
    next =>
      refine keeps_raise K .blocks (K.measureLeaves (p := p) _ (fun _ => ⟨?_, ?_, ?_, ?_⟩) h)
      · simp [back.1]
      · simp [back.1]
      · simp
      · simp [Part.hasBlock]
    next absent =>
      exact K.intake (p := p) _ (fun safe => absurd (safe.block.mpr back.2) absent) h
  next notBack =>
    simp only [Bool.and_eq_true, decide_eq_true_eq, not_and] at notBack
    refine K.intake _ (fun safe => ⟨?_, ?_, ?_, safe.block⟩) h
    · exact (Nat.sub_le _ _).trans safe.bounded
    · exact fun good => lt_of_le_of_lt (Nat.sub_le _ _) (safe.good good)
    · intro lost
      exact Nat.pos_of_ne_zero fun zero => notBack zero lost

theorem keeps_setSource (live : Bool) (hold : Nat) {p : Part} (h : I p) : I (setSource live hold p) := by
  unfold setSource
  have written := keeps_intake K { p.intake with sourceLive := live, liveHold := hold } rfl rfl h
  dsimp only
  split
  · exact written
  · exact keeps_huntConditionsChanged K (keeps_seqConditionsChanged K written)

theorem keeps_countFrame {p : Part} (h : I p) : I (countFrame p) := by
  unfold countFrame
  split
  · exact keeps_addLoss K _ h
  · split
    · exact h
    · exact keeps_dropLoss K h

theorem keeps_takeFrame (bytes : List Byte) {p : Part} (h : I p) : I (takeFrame bytes p) := by
  unfold takeFrame
  split
  · split
    · unfold checkFrame
      dsimp only
      split
      · exact h
      · split
        · exact keeps_addLoss K _ h
        · exact keeps_elementsStep K (keeps_countFrame K (keeps_intake K _ rfl rfl
            (keeps_setSource K _ _ (keeps_intake K _ rfl rfl (keeps_addLoss K _ h)))))
    · exact keeps_addLoss K _ h
  · exact h

theorem keeps_frameDueEnded {p : Part} (h : I p) : I (frameDueEnded p) := by
  unfold frameDueEnded
  have counted := keeps_addLoss K 1 (keeps_intake K { p.intake with reference := p.intake.reference.map (· + 1) } rfl rfl h)
  have held : ∀ {q : Part}, I q → I (missSource q) := by
    intro q hq
    unfold missSource
    split
    · exact keeps_setSource K _ _ hq
    · exact keeps_setSource K _ _ hq
  exact keeps_intake K _ rfl rfl (keeps_elementsStep K (keeps_intake K _ rfl rfl (held counted)))

/-! ## The breaker mechanism -/

theorem keeps_completeTrip {p : Part} (h : I p) : I (completeTrip p) := by
  unfold completeTrip
  split
  · have completed := keeps_completeRecord K .opened (K.orderEnds h)
    unfold openedTaken
    split
    · exact keeps_seqOpened K completed
    · exact keeps_huntOpened K completed
    · exact completed
  · exact h

theorem keeps_announceOpen (byOrder : Bool) {p : Part} (h : I p) : I (announceOpen byOrder p) := by
  unfold announceOpen
  have told := K.elementsOpened (K.mech { p.mech with settled := some .opened } rfl rfl rfl h)
  dsimp only
  split
  · exact told
  · exact keeps_abandonIfRunning K _ _ _ (keeps_seqExternalOpen K told)

theorem keeps_announceClosed (byOrder : Bool) {p : Part} (h : I p) : I (announceClosed byOrder p) := by
  unfold announceClosed
  have told := keeps_elementsClosed K byOrder (K.mech { p.mech with settled := some .closed } rfl rfl rfl h)
  dsimp only
  split
  · exact told
  · exact keeps_abandonIfRunning K _ _ _ (keeps_seqExternalClose K told)

theorem keeps_completeClose {p : Part} (h : I p) : I (completeClose p) := by
  unfold completeClose
  split
  · have ended := K.orderEnds h
    unfold closedTaken
    split
    · exact keeps_seqCloseDone K ended
    · exact keeps_huntCloseDone K ended
    · exact ended
  · exact h

theorem keeps_contactsChanged (a b : Bool) {p : Part} (h : I p) : I (contactsChanged a b p) := by
  unfold contactsChanged
  split
  · exact h
  · split
    · exact K.readContacts a b h
    · have moved : I (moveContacts a b p) := K.mech _ rfl rfl rfl h
      dsimp only
      split
      · unfold becomesOpen
        split
        · exact keeps_completeTrip K moved
        · exact keeps_announceOpen K _ (keeps_completeTrip K moved)
      · unfold becomesClosed
        split
        · exact moved
        · exact keeps_announceClosed K _ (keeps_completeClose K moved)
      · exact moved

theorem keeps_positionFailure {p : Part} (h : I p) : I (positionFailure p) :=
  keeps_seqPositionFailure K (keeps_raise K _ (keeps_placeMechanism K h))

theorem keeps_travelEnded {p : Part} (h : I p) : I (travelEnded p) :=
  keeps_positionFailure K (K.mech { p.mech with travelTimer := none } rfl rfl rfl h)

theorem keeps_discrepancyEnded {p : Part} (h : I p) : I (discrepancyEnded p) :=
  keeps_positionFailure K (K.mech { p.mech with discrepancyTimer := none } rfl rfl rfl h)

theorem keeps_tripTimedOut {p : Part} (h : I p) : I (tripTimedOut p) := by
  unfold tripTimedOut
  split
  · have failed := keeps_completeRecord K .tripFail
      (keeps_raise K .mechanismFail (keeps_placeMechanism K (K.orderEnds h)))
    unfold tripFailTaken
    split
    · exact keeps_seqTripFailed K failed
    · exact failed
  · exact h

theorem keeps_closeTimedOut {p : Part} (h : I p) : I (closeTimedOut p) := by
  unfold closeTimedOut
  split
  · have failed := keeps_closeEnded K (keeps_raise K .mechanismFail (keeps_placeMechanism K (K.orderEnds h)))
    unfold closeFailTaken
    split
    · exact keeps_seqCloseFailed K failed
    · exact failed
  · exact h

theorem keeps_energyChanged (high : Bool) {p : Part} (h : I p) : I (energyChanged high p) := by
  unfold energyChanged
  have read := K.mech { p.mech with energyHigh := high } rfl rfl rfl h
  dsimp only
  split
  · exact h
  · split
    · exact keeps_huntConditionsChanged K (keeps_seqConditionsChanged K read)
    · exact read

theorem keeps_askClose {p : Part} (h : I p) : I (askClose p).1 := by
  unfold askClose
  split
  · exact h
  · have placed := keeps_placeClose K .sequencer .manual h
    split
    next q _ hq => rw [hq] at placed; exact placed
    next q hq => rw [hq] at placed; exact K.seq _ placed

theorem keeps_askResetMechanism {p : Part} (h : I p) : I (askResetMechanism p).1 := by
  unfold askResetMechanism
  split
  · exact h
  · have reset := keeps_seqMechanismReset K (keeps_removePart K (k := .mechanism) (by simp) h)
    split
    · exact reset
    · exact reset
    · exact h

/-! ## The Hunt's requests and the notices -/

theorem keeps_askWriteSection (target first : Byte) (second : Half) {p : Part} (h : I p) :
    I (askWriteSection target first second p).1 := by
  unfold askWriteSection
  split
  · unfold writeHeader
    split
    · exact h
    · split
      · exact h
      · exact K.table _ h
  · split
    · unfold writeEntry
      split
      · exact h
      · split
        · exact h
        · exact K.table _ h
    · exact h

theorem keeps_askConfirmSections (k : LinkId) {p : Part} (h : I p) : I (askConfirmSections k p).1 := by
  unfold askConfirmSections
  split
  · exact h
  · exact h
  · split
    · exact h
    · exact keeps_queueWrite K _ _ (K.table _ h)

theorem keeps_askStartHunt (m : Master) {p : Part} (h : I p) : I (askStartHunt m p).1 := by
  unfold askStartHunt
  split
  · exact h
  · exact keeps_beginHunt K _ h

theorem keeps_askAbortHunt (m : Master) {p : Part} (h : I p) : I (askAbortHunt m p).1 := by
  unfold askAbortHunt
  split
  · exact keeps_abandon K .aborted _ _ h
  · exact h

theorem keeps_askReportSwitch (ident state : Byte) (reference : Half) {p : Part} (h : I p) :
    I (askReportSwitch ident state reference p).1 := by
  unfold askReportSwitch
  split
  next => exact h
  next b _ =>
    split
    · exact h
    · split
      · exact h
      · split
        · exact h
        · have believed := K.table (p.table.reported ident.toNat b) h
          unfold reportTaken
          split
          · exact keeps_weighDisturbance K _ believed
          · split
            · split
              · exact keeps_orderAnswered K _ _ believed
              · exact believed
            · exact believed

theorem keeps_askReadNotice (m : Master) {p : Part} (h : I p) : I (askReadNotice m p).1 := by
  unfold askReadNotice
  split
  · exact h
  · exact K.notices _ _ h

theorem keeps_askSetMask (m : Master) (mask : Half) {p : Part} (h : I p) : I (askSetMask m mask p).1 := by
  unfold askSetMask
  split
  · exact h
  · exact K.notices _ _ h

theorem keeps_holdoffEnded (m : Master) {p : Part} (h : I p) : I (holdoffEnded m p) := K.notices _ _ h

/-! ## Master links -/

theorem keeps_countBad (k : LinkId) {p : Part} (h : I p) : I (countBad k p) := by
  unfold countBad
  dsimp only
  split
  · exact keeps_raiseLinkFault K _ (K.link _ _ rfl h)
  · exact K.link _ _ rfl h

theorem keeps_countGood (k : LinkId) {p : Part} (h : I p) : I (countGood k p) := by
  unfold countGood
  dsimp only
  split
  · exact keeps_raiseLinkFault K _ (K.link _ _ rfl h)
  · exact K.link _ _ rfl h

theorem keeps_askResetLink (k : LinkId) (m : Master) {p : Part} (h : I p) : I (askResetLink k m p).1 := by
  have cleared := K.link k ((p.links.get k).cleared (p.timer 5)) rfl h
  refine K.notices _ _ ?_
  unfold resetHealth
  dsimp only
  split
  · exact keeps_raiseLinkFault K _ (K.link _ _ rfl cleared)
  · exact K.link _ _ rfl cleared

theorem keeps_ownerTakes (k : LinkId) (m : Master) (r : Request) {p : Part} (h : I p) : I (ownerTakes k m r p).1 := by
  cases r with
  | clearQuality => exact keeps_intake K _ rfl rfl h
  | readNotice => exact keeps_askReadNotice K m h
  | setNoticeMask mask => exact keeps_askSetMask K m mask h
  | setHoldoff ms => exact K.holdoff m _ h
  | trip => exact keeps_seqTripRequest K m h
  | close => exact keeps_askClose K h
  | resetMechanism => exact keeps_askResetMechanism K h
  | placeBlock kind reason expiry => exact keeps_askPlaceBlock K k m kind reason expiry h
  | removeBlock kind owner reason => exact keeps_askRemoveBlock K k m kind owner reason h
  | writeSetting target field value => exact keeps_askWriteSetting K target field value h
  | confirmGroup group => exact keeps_askConfirmGroup K k group h
  | setSeason season => exact keeps_askSetSeason K k season h
  | declareFireLevel level hours => exact keeps_askDeclare K level hours h
  | raiseLocalLevel level => exact keeps_askRaiseLocal K level h
  | clearLocalLevel => exact keeps_askClearLocal K h
  | writeSection target first second => exact keeps_askWriteSection K target first second h
  | confirmSections => exact keeps_askConfirmSections K k h
  | startHunt => exact keeps_askStartHunt K m h
  | abortHunt => exact keeps_askAbortHunt K m h
  | reportSwitch ident state reference => exact keeps_askReportSwitch K ident state reference h
  | resetLink => exact keeps_askResetLink K k m h
  | status | readMeasurements | readBlocks | readSetting _ _ | readGroupState | readSections | readHuntOrder | readHunt
  | readRecord _ => exact h

theorem keeps_serve (k : LinkId) (m : Master) (frame : List Byte) (r : Request) {p : Part} (h : I p) :
    I (serve k m frame r p) := by
  have found : I (wellFormed k m frame p) := keeps_heard K m (keeps_countGood K k (K.link _ _ rfl h))
  have weighed : I (weigh k m r (wellFormed k m frame p)).1 := by
    unfold weigh
    split
    · exact keeps_ownerTakes K k m r found
    · exact found
  exact K.link _ _ rfl weighed

theorem keeps_takeFrameOn (k : LinkId) (frame : List Byte) {p : Part} (h : I p) : I (takeFrameOn k frame p) := by
  unfold takeFrameOn
  split
  · exact h
  · split
    · exact keeps_countBad K k h
    · exact keeps_serve K k _ frame _ h

theorem keeps_deliver (k : LinkId) (frame : List Byte) {p : Part} (h : I p) : I (deliver k frame p) := by
  unfold deliver
  dsimp only
  split
  · exact keeps_takeFrameOn K k frame h
  · split
    · exact K.link _ _ rfl h
    · exact keeps_countBad K k h

theorem keeps_answerGone (k : LinkId) {p : Part} (h : I p) : I (answerGone k p) := by
  unfold answerGone
  split
  · split
    · exact h
    · unfold becomeFree
      have freed := K.link k
        { p.links.get k with busy := false, inHand := none, answer := none, waiting := none } rfl h
      dsimp only
      split
      · exact keeps_takeFrameOn K k _ freed
      · exact freed
  · exact h

theorem keeps_request (k : LinkId) (r : Request) {p : Part} (h : I p) : I (request k r p) := by
  unfold request
  split
  · exact keeps_deliver K k _ h
  · exact h

theorem keeps_receiveByte (k : LinkId) (b : Byte) {p : Part} (h : I p) : I (receiveByte k b p) := by
  unfold receiveByte
  split
  · unfold byteTaken
    split
    · exact K.link _ _ rfl h
    · unfold lengthByte
      split
      · exact keeps_countBad K k (K.link _ _ rfl h)
      · exact K.link _ _ rfl h
    · unfold frameByte
      dsimp only
      split
      · exact keeps_deliver K k _ (K.link _ _ rfl h)
      · exact K.link _ _ rfl h
  · exact h

theorem keeps_gapEnded (k : LinkId) {p : Part} (h : I p) : I (gapEnded k p) := by
  unfold gapEnded
  have stopped := K.link k { p.links.get k with gapTimer := none } rfl h
  dsimp only
  split
  · exact keeps_countBad K k (K.link _ _ rfl stopped)
  · exact stopped

theorem keeps_quietWaitEnded (k : LinkId) {p : Part} (h : I p) : I (quietWaitEnded k p) := by
  unfold quietWaitEnded
  have stopped := K.link k { p.links.get k with quietTimer := none } rfl h
  dsimp only
  split
  · exact K.link _ _ rfl stopped
  · exact stopped

theorem keeps_writeCompleted {p : Part} (h : I p) : I (writeCompleted p) := by
  have released : ∀ (k : Option LinkId) {q : Part}, I q → I (releaseAnswer k q) := by
    intro k q hq
    unfold releaseAnswer
    split
    · exact hq
    · split
      · exact K.link _ _ rfl hq
      · exact hq
  unfold writeCompleted
  split
  · exact h
  · split
    · exact keeps_beginWrite K (released _ (K.store _ h))
    · exact h

/-! ## The commands and the step -/

/-- A timer's expiry keeps what the rule at its end keeps. -/
theorem keeps_expired (t : Option Nat) {f : Part → Part} (hf : ∀ {q : Part}, I q → I (f q)) {p : Part} (h : I p) :
    I (expired t f p) :=
  expired_keeps I t f p h (fun _ => K.clock _ h) (fun _ => hf)

/-- A request's command keeps the property. -/
theorem keeps_command (k : LinkId) (r : Request) (s : State) (h : I s.toPart) :
    ∃ t : State, exec (r.command k) s = .next t ∧ I t.toPart :=
  ⟨_, exec_command k r s, keeps_request K k r h⟩

/-- Every command keeps the property. -/
theorem keeps_exec (c : Instr) (s : State) (h : I s.toPart) : ∃ t : State, exec c s = .next t ∧ I t.toPart := by
  cases c with
  | coldStart reads => exact ⟨_, rfl, K.coldStarted reads⟩
  | startUpComplete => exact ⟨_, rfl, K.startedUp h⟩
  | measurementFrame bytes => exact ⟨_, rfl, keeps_takeFrame K bytes h⟩
  | missingFrameStep => exact ⟨_, rfl, keeps_expired K _ (keeps_frameDueEnded K) h⟩
  | sotfWindowExpiry => exact ⟨_, rfl, keeps_sotfEnded K h⟩
  | coldLoadWindowExpiry => exact ⟨_, rfl, keeps_coldLoadEnded K h⟩
  | quietEnd => exact ⟨_, rfl, keeps_quietEnded K h⟩
  | huntTestWindowEnd => exact ⟨_, rfl, keeps_huntWindowEnded K h⟩
  | contactChange a b => exact ⟨_, rfl, keeps_contactsChanged K a b h⟩
  | travelTimerExpiry =>
    exact ⟨_, rfl, keeps_expired K _ (keeps_travelEnded K) h⟩
  | discrepancyTimerExpiry =>
    exact ⟨_, rfl, keeps_expired K _ (keeps_discrepancyEnded K) h⟩
  | energyReadyChange high => exact ⟨_, rfl, keeps_energyChanged K high h⟩
  | tripOrderTimeout => exact ⟨_, rfl, keeps_expired K _ (keeps_tripTimedOut K) h⟩
  | closeOrderTimeout => exact ⟨_, rfl, keeps_expired K _ (keeps_closeTimedOut K) h⟩
  | deadTimeExpiry => exact ⟨_, rfl, keeps_expired K _ (keeps_deadTimeEnded K) h⟩
  | closeWaitExpiry => exact ⟨_, rfl, keeps_expired K _ (keeps_closeWaitEnded K) h⟩
  | reclaimExpiry => exact ⟨_, rfl, keeps_expired K _ (keeps_reclaimEnded K) h⟩
  | blockExpiry owner reason => exact ⟨_, rfl, keeps_blockExpired K owner reason h⟩
  | declarationExpiry => exact ⟨_, rfl, keeps_expired K _ (keeps_declarationEnded K) h⟩
  | silenceTimerExpiry => exact ⟨_, rfl, keeps_expired K _ (keeps_silenceEnded K) h⟩
  | orderTimerExpiry => exact ⟨_, rfl, keeps_expired K _ (keeps_orderTimerEnded K) h⟩
  | huntCloseWaitExpiry => exact ⟨_, rfl, keeps_expired K _ (keeps_huntCloseWaitEnded K) h⟩
  | holdoffExpiry m => exact ⟨_, rfl, keeps_expired K _ (keeps_holdoffEnded K m) h⟩
  | badLengthByte k b => exact ⟨_, rfl, keeps_receiveByte K k b h⟩
  | gapTimerExpiry k => exact ⟨_, rfl, keeps_expired K _ (keeps_gapEnded K k) h⟩
  | quietTimerExpiry k => exact ⟨_, rfl, keeps_expired K _ (keeps_quietWaitEnded K k) h⟩
  | requestFrame k b => exact ⟨_, rfl, keeps_receiveByte K k b h⟩
  | answerSent k => exact ⟨_, rfl, keeps_answerGone K k h⟩
  | storeWriteComplete => exact ⟨_, rfl, keeps_writeCompleted K h⟩
  | linkByteReceived k b => exact ⟨_, rfl, keeps_receiveByte K k b h⟩
  | status k => exact keeps_command K k .status s h
  | readMeasurements k => exact keeps_command K k .readMeasurements s h
  | clearQuality k => exact keeps_command K k .clearQuality s h
  | readNotice k => exact keeps_command K k .readNotice s h
  | setNoticeMask k mask => exact keeps_command K k (.setNoticeMask mask) s h
  | setHoldoff k ms => exact keeps_command K k (.setHoldoff ms) s h
  | trip k => exact keeps_command K k .trip s h
  | close k => exact keeps_command K k .close s h
  | resetMechanism k => exact keeps_command K k .resetMechanism s h
  | placeBlock k kind reason expiry => exact keeps_command K k (.placeBlock kind reason expiry) s h
  | removeBlock k kind owner reason => exact keeps_command K k (.removeBlock kind owner reason) s h
  | readBlocks k => exact keeps_command K k .readBlocks s h
  | readSetting k target field => exact keeps_command K k (.readSetting target field) s h
  | writeSetting k target field value => exact keeps_command K k (.writeSetting target field value) s h
  | confirmGroup k group => exact keeps_command K k (.confirmGroup group) s h
  | readGroupState k => exact keeps_command K k .readGroupState s h
  | setSeason k season => exact keeps_command K k (.setSeason season) s h
  | declareFireLevel k level hours => exact keeps_command K k (.declareFireLevel level hours) s h
  | raiseLocalLevel k level => exact keeps_command K k (.raiseLocalLevel level) s h
  | clearLocalLevel k => exact keeps_command K k .clearLocalLevel s h
  | writeSection k target first second => exact keeps_command K k (.writeSection target first second) s h
  | confirmSections k => exact keeps_command K k .confirmSections s h
  | readSections k => exact keeps_command K k .readSections s h
  | startHunt k => exact keeps_command K k .startHunt s h
  | abortHunt k => exact keeps_command K k .abortHunt s h
  | readHuntOrder k => exact keeps_command K k .readHuntOrder s h
  | reportSwitch k ident state reference => exact keeps_command K k (.reportSwitch ident state reference) s h
  | readHunt k => exact keeps_command K k .readHunt s h
  | readRecord k index => exact keeps_command K k (.readRecord index) s h
  | resetLink k => exact keeps_command K k .resetLink s h

/-- Every step keeps the property. -/
theorem keeps_step (s t : State) (h : I s.toPart) (hs : step s = .next t) : I t.toPart :=
  step_keeps I (keeps_exec K) (fun _ hp => K.clock _ hp) s t h hs

end Sys2Proof.Machine

end KeptByEveryStep

/-! THE FIVE INVARIANTS (Safety.lean). Each is kept by every primitive write, and so by every step; each holds at reset. -/

section Invariants

namespace Sys2Proof.Machine

/-! ## The attention lines (R164) -/

/-- A line depends on the notices, on whether the part has started, and on the roles of its links. -/
theorem LinesTrue.congr {p q : Part} (h : LinesTrue p) (hn : q.notices = p.notices)
    (hs : ∀ m : Master, q.showsLine m = p.showsLine m) : LinesTrue q := by
  intro m
  rw [hn, hs]
  exact h m

/-- A master's notices replaced with their line weighed, the other lines stay true. -/
theorem LinesTrue.setNotices (m : Master) (n : MasterNotices) {p : Part} (h : LinesTrue p) : LinesTrue (setNotices m n p) := by
  intro x
  change ((p.notices.set m _).get x).line = ((p.notices.set m _).get x).lineLevel (p.showsLine x)
  by_cases hx : x = m
  · subst hx
    rw [PerMaster.get_set_self]
    rfl
  · rw [PerMaster.get_set_ne _ _ hx]
    exact h x

/-- A holdoff set weighs no line, and no line depends on it (R170). -/
theorem LinesTrue.setHoldoff (m : Master) (v : Nat) {p : Part} (h : LinesTrue p) :
    LinesTrue { p with notices := p.notices.set m { p.notices.get m with holdoff := v } } := by
  intro x
  change ((p.notices.set m _).get x).line = ((p.notices.set m _).get x).lineLevel (p.showsLine x)
  by_cases hx : x = m
  · subst hx
    rw [PerMaster.get_set_self]
    exact h x
  · rw [PerMaster.get_set_ne _ _ hx]
    exact h x

/-- Which lines are shown depends on the roles and on whether the part has started (R173, R175). -/
theorem showsLine_congr {p q : Part} (hs : q.started = p.started)
    (hr : ∀ j : LinkId, (q.links.get j).role = (p.links.get j).role) (m : Master) : q.showsLine m = p.showsLine m := by
  have h1 : q.links.link1.role = p.links.link1.role := hr .link1
  have h2 : q.links.link2.role = p.links.link2.role := hr .link2
  have h3 : q.links.link3.role = p.links.link3.role := hr .link3
  simp only [Part.showsLine, Part.holdsRole, hs, h1, h2, h3]

/-- A link replaced by one of its role shows the same lines (R175). -/
theorem setLink_showsLine {k : LinkId} {l : Link} {p : Part} (h : l.role = (p.links.get k).role) (m : Master) :
    (setLink k l p).showsLine m = p.showsLine m := by
  refine showsLine_congr (setLink_started k l p) (fun j => ?_) m
  rw [setLink_links, PerLink.get_set]
  split
  next hj => rw [h, hj]
  next => rfl

/-- Every line weighed, every line is true. -/
theorem weighLines_linesTrue (p : Part) : LinesTrue (weighLines p) := by
  intro m
  cases m <;> rfl

/-- Start-up over, or still held by the cold-start input, the lines are true (R173). -/
theorem LinesTrue.startedUp {p : Part} (h : LinesTrue p) : LinesTrue (startedUp p) := by
  unfold Machine.startedUp
  split
  · exact h
  · split
    · exact h
    · exact weighLines_linesTrue _

theorem linesTrue_kept : Kept LinesTrue where
  clock _ h := h
  seq _ h := h
  hunt _ h := h
  records _ h := h
  table _ h := h
  store _ h := h
  posture _ _ h := h
  notices m n h := h.setNotices m n
  holdoff m v h := h.setHoldoff m v
  link _ _ hr h := h.congr rfl (setLink_showsLine hr)
  elements _ _ h := h
  elementsOpened h := h
  elementsRun h := h
  countOpen {p} h := by
    unfold countOpen
    split <;> exact h
  readContacts _ _ h := h
  mech _ _ _ _ h := h
  orderEnds h := h
  tripBegins _ _ _ _ _ h := h
  closeBegins _ _ _ _ _ h := h
  entryJoins _ _ _ h := h
  entriesLeave _ _ h := h
  entriesChange _ _ h := h
  intake _ _ h := h
  measureJoins _ _ _ _ h := h
  measureLeaves _ _ h := h
  coldStarted r m := by cases m <;> rfl
  startedUp h := h.startedUp

/-- Settles O20: a line is written only together with what it is weighed by. -/
theorem linesStayTrue : Obligations.LinesStayTrue := keeps_step linesTrue_kept

/-! ## Selection (R114, R116) -/

theorem startedUp_posture (p : Part) : (startedUp p).posture = p.posture := by
  unfold startedUp
  split
  · rfl
  · split
    · rfl
    · simp [weighLines, startTimers]

theorem selectionStands_kept : Kept (fun p => SelectionStands p.posture) where
  clock _ h := h
  seq _ h := h
  hunt _ h := h
  records _ h := h
  table _ h := h
  store _ h := h
  posture _ hx h := hx h
  notices _ _ h := h
  holdoff _ _ h := h
  link _ _ _ h := h
  elements _ _ h := h
  elementsOpened h := h
  elementsRun h := h
  countOpen {p} h := by
    unfold countOpen
    split <;> exact h
  readContacts _ _ h := h
  mech _ _ _ _ h := h
  orderEnds h := h
  tripBegins _ _ _ _ _ h := h
  closeBegins _ _ _ _ _ h := h
  entryJoins _ _ _ h := h
  entriesLeave _ _ h := h
  entriesChange _ _ h := h
  intake _ _ h := h
  measureJoins _ _ _ _ h := h
  measureLeaves _ _ h := h
  coldStarted _ := rfl
  startedUp {p} h := by rwa [startedUp_posture]

/-- Settles O49: the inputs and the groups are written only under a recomputation. -/
theorem selectionStaysTrue : Obligations.SelectionStaysTrue := keeps_step selectionStands_kept

/-! ## The counts of Elements (R20, R23, R25, R26) -/

theorem stepAcc_le (c : Channel) (pickup : Nat) (curve : Nat × Nat) {acc : Nat} (h : acc ≤ 1000000) :
    stepAcc c pickup curve acc ≤ 1000000 := by
  unfold stepAcc
  split
  · exact h
  · split
    · exact min_le_right _ _
    · exact (Nat.sub_le _ _).trans h

theorem stepHighset_le (s : Settings) (c : Channel) {count : Nat} (h : count ≤ 50) : stepHighset s c count ≤ 50 := by
  unfold stepHighset
  split
  · exact Nat.zero_le _
  · split
    · exact h
    · split
      · exact min_le_right _ _
      · exact Nat.zero_le _

theorem stepSef_le (s : Settings) (n : Channel) {count : Nat} (h : count ≤ 6000) : stepSef s n count ≤ 6000 := by
  unfold stepSef
  split
  · exact h
  · split
    · exact min_le_right _ _
    · split
      · exact h
      · exact Nat.zero_le _

theorem SameCounts.bounded {e f : Elements} (same : SameCounts e f) (h : CountsBounded f) : CountsBounded e := by
  obtain ⟨ha, hh, hs, ho⟩ := same
  exact ⟨ha ▸ h.accA, ha ▸ h.accB, ha ▸ h.accC, ha ▸ h.accN, hh ▸ h.highsetA, hh ▸ h.highsetB, hh ▸ h.highsetC, hs ▸ h.sef,
    ho ▸ h.openCount⟩

/-- A running step keeps every count within its range, in either mode (R34, R35). -/
theorem CountsBounded.elementsRun {p : Part} (h : CountsBounded p.elements) : CountsBounded (elementsRun p).elements := by
  have highset := fun c {count : Nat} => stepHighset_le p.settings c (count := count)
  cases hm : p.elements.mode with
  | huntTest =>
    have ho : stepOutcome p.settings p.elements p.intake.channels = huntTestStep p.settings p.elements p.intake.channels := by
      simp [stepOutcome, hm]
    simp only [Machine.elementsRun, ho]
    exact ⟨h.accA, h.accB, h.accC, h.accN, highset _ h.highsetA, highset _ h.highsetB, highset _ h.highsetC, h.sef,
      h.openCount⟩
  | normal =>
    have ho : stepOutcome p.settings p.elements p.intake.channels = normalStep p.settings p.elements p.intake.channels := by
      simp [stepOutcome, hm]
    simp only [Machine.elementsRun, ho]
    refine ⟨stepAcc_le _ _ _ h.accA, stepAcc_le _ _ _ h.accB, stepAcc_le _ _ _ h.accC, stepAcc_le _ _ _ h.accN,
      highset _ h.highsetA, highset _ h.highsetB, highset _ h.highsetC, ?_, h.openCount⟩
    change (if _ then p.elements.sef else stepSef _ _ p.elements.sef) ≤ 6000
    split
    · exact h.sef
    · exact stepSef_le _ _ h.sef

theorem CountsBounded.countOpen {p : Part} (h : CountsBounded p.elements) : CountsBounded (countOpen p).elements := by
  unfold Machine.countOpen
  split
  · exact h
  · exact ⟨h.accA, h.accB, h.accC, h.accN, h.highsetA, h.highsetB, h.highsetC, h.sef, min_le_right _ _⟩

/-- The open count is read from the contacts before start-up is complete (R40, R54). -/
theorem CountsBounded.readContacts (a b : Bool) {p : Part} (h : CountsBounded p.elements) :
    CountsBounded (readContacts a b p).elements := by
  refine ⟨h.accA, h.accB, h.accC, h.accN, h.highsetA, h.highsetB, h.highsetC, h.sef, ?_⟩
  change (if _ then 0 else openCountFull) ≤ 360000
  split
  · exact Nat.zero_le _
  · exact le_rfl

theorem countsBounded_reset : CountsBounded Part.reset.elements := by constructor <;> decide

theorem startedUp_elements (p : Part) : (startedUp p).elements = p.elements := by
  unfold startedUp
  split
  · rfl
  · split
    · rfl
    · simp [weighLines, startTimers]

theorem countsBounded_kept : Kept (fun p => CountsBounded p.elements) where
  clock _ h := h
  seq _ h := h
  hunt _ h := h
  records _ h := h
  table _ h := h
  store _ h := h
  posture _ _ h := h
  notices _ _ h := h
  holdoff _ _ h := h
  link _ _ _ h := h
  elements _ same h := same.bounded h
  elementsOpened _ := by constructor <;> exact Nat.zero_le _
  elementsRun h := h.elementsRun
  countOpen h := h.countOpen
  readContacts a b h := h.readContacts a b
  mech _ _ _ _ h := h
  orderEnds h := h
  tripBegins _ _ _ _ _ h := h
  closeBegins _ _ _ _ _ h := h
  entryJoins _ _ _ h := h
  entriesLeave _ _ h := h
  entriesChange _ _ h := h
  intake _ _ h := h
  measureJoins _ _ _ _ h := h
  measureLeaves _ _ h := h
  coldStarted r := CountsBounded.readContacts r.openMade r.closedMade (p := { Part.reset with mech := _ }) countsBounded_reset
  startedUp {p} h := by rwa [startedUp_elements]

/-- Settles O30: only a running step, the open count and the readings of the position write a count. -/
theorem elementCountsStayBounded : Obligations.ElementCountsStayBounded := keeps_step countsBounded_kept

/-! ## The outputs (R46) -/

/-- The outputs and the order in progress as they were, no HOT_LINE new. -/
theorem OutputsSafe.congr {p q : Part} (h : OutputsSafe p) (ho : q.mech.order = p.mech.order) (ht : q.mech.tripOutput = p.mech.tripOutput)
    (hc : q.mech.closeOutput = p.mech.closeOutput) (hb : p.hasBlock .hotLine = false → q.hasBlock .hotLine = false) :
    OutputsSafe q :=
  ⟨by rw [ho, ht]; exact h.tripOnly, by rw [ho, hc]; exact h.closeOnly, by rw [hc]; exact fun hx => hb (h.hotLine hx)⟩

/-- The outputs as they were, the list as it was. -/
theorem OutputsSafe.same {p q : Part} (h : OutputsSafe p) (hm : q.mech = p.mech) (he : q.entries = p.entries) :
    OutputsSafe q :=
  h.congr (by rw [hm]) (by rw [hm]) (by rw [hm]) (by rw [Part.hasBlock_congr he]; exact id)

/-- With no order in progress both outputs are released. -/
theorem OutputsSafe.of_none {p : Part} (ho : p.mech.order = .none) (ht : p.mech.tripOutput = false)
    (hc : p.mech.closeOutput = false) : OutputsSafe p := by
  constructor <;> simp [ho, ht, hc]

/-- A trip order begun with none in progress asserts the trip output alone (R47). -/
theorem OutputsSafe.tripBegins {p : Part} {x : Mechanism} (hp : p.mech.order = .none) (ho : x.order = .trip)
    (ht : x.tripOutput = true) (hc : x.closeOutput = p.mech.closeOutput) (h : OutputsSafe p) :
    OutputsSafe { p with mech := x } := by
  have released : x.closeOutput = false := by
    rw [hc]
    by_contra asserted
    have := h.closeOnly.mp (by simpa using asserted)
    simp [hp] at this
  constructor <;> simp [ho, ht, released]

/-- Mechanism accepts a close when each of R49's checks passes. -/
theorem closeRefusal_eq_none_iff {p : Part} : closeRefusal p = none ↔
    p.mech.order = .none ∧ p.position = .opened ∧ p.mech.energyHigh = true ∧ p.hasBlock .hotLine = false ∧
      p.hasBlock .mechanism = false := by
  unfold closeRefusal
  split_ifs <;> simp_all

/-- A close order accepted asserts the close output alone, with no HOT_LINE in the list (R49). -/
theorem OutputsSafe.closeBegins {p : Part} {x : Mechanism} (accepted : closeRefusal p = none) (ho : x.order = .close)
    (hc : x.closeOutput = true) (ht : x.tripOutput = p.mech.tripOutput) (h : OutputsSafe p) :
    OutputsSafe { p with mech := x } := by
  obtain ⟨none, -, -, noHotLine, -⟩ := closeRefusal_eq_none_iff.mp accepted
  have released : x.tripOutput = false := by
    rw [ht]
    by_contra asserted
    have := h.tripOnly.mp (by simpa using asserted)
    simp [none] at this
  exact ⟨by simp [ho, released], by simp [ho, hc], fun _ => noHotLine⟩

/-- An entry joins the list: a HOT_LINE only with no close order in progress. -/
theorem OutputsSafe.entryJoins {p : Part} {e : BlockEntry} (hl : e.kind = .hotLine → p.mech.order ≠ .close)
    (h : OutputsSafe p) : OutputsSafe { p with entries := p.entries ++ [e] } := by
  refine ⟨h.tripOnly, h.closeOnly, fun asserted => ?_⟩
  have other : e.kind ≠ .hotLine := fun hk => hl hk (h.closeOnly.mp asserted)
  have before := h.hotLine asserted
  unfold Part.hasBlock at before ⊢
  simpa [other] using before

/-- Entries leave the list. -/
theorem OutputsSafe.entriesLeave {p : Part} (f : BlockEntry → Bool) (h : OutputsSafe p) :
    OutputsSafe { p with entries := p.entries.filter f } := by
  refine h.congr rfl rfl rfl fun before => ?_
  simp only [Part.hasBlock, List.any_eq_false] at before ⊢
  exact fun e he => before e (List.mem_of_mem_filter he)

/-- The kinds of a list whose entries keep theirs. -/
theorem any_kind_map (l : List BlockEntry) {f : BlockEntry → BlockEntry} (hf : ∀ e : BlockEntry, (f e).kind = e.kind)
    (k : BlockKind) : (l.map f).any (fun e => decide (e.kind = k)) = l.any (fun e => decide (e.kind = k)) := by
  simp [List.any_map, Function.comp_def, hf]

theorem OutputsSafe.startedUp {p : Part} (h : OutputsSafe p) : OutputsSafe (startedUp p) := by
  unfold Machine.startedUp
  split
  · exact h
  · split
    · exact h.same rfl rfl
    · refine h.congr ?_ ?_ ?_ ?_ <;> simp [weighLines, startTimers, Part.hasBlock]

theorem outputsSafe_kept : Kept OutputsSafe where
  clock _ h := h.same rfl rfl
  seq _ h := h.same rfl rfl
  hunt _ h := h.same rfl rfl
  records _ h := h.same rfl rfl
  table _ h := h.same rfl rfl
  store _ h := h.same rfl rfl
  posture _ _ h := h.same rfl rfl
  notices _ _ h := h.same rfl rfl
  holdoff _ _ h := h.same rfl rfl
  link _ _ _ h := h.same rfl rfl
  elements _ _ h := h.same rfl rfl
  elementsOpened h := h.same rfl rfl
  elementsRun h := h.same rfl rfl
  countOpen {p} h := by
    unfold countOpen
    split
    · exact h
    · exact h.same rfl rfl
  readContacts _ _ h := h.congr rfl rfl rfl id
  mech _ ho ht hc h := h.congr ho ht hc id
  orderEnds _ := .of_none rfl rfl rfl
  tripBegins _ hp ho ht hc h := h.tripBegins hp ho ht hc
  closeBegins _ accepted ho hc ht h := h.closeBegins accepted ho hc ht
  entryJoins _ _ hl h := h.entryJoins hl
  entriesLeave f _ h := h.entriesLeave f
  entriesChange {p} f hf h := h.congr rfl rfl rfl (by
    unfold Part.hasBlock
    rw [any_kind_map _ hf]
    exact id)
  intake _ _ h := h.same rfl rfl
  measureJoins x e he _ h :=
    have joined := h.entryJoins (e := e) (by simp [he])
    joined.same rfl rfl
  measureLeaves x _ h :=
    have left := h.entriesLeave (fun e => e.kind ≠ .measure)
    left.same rfl rfl
  coldStarted _ := .of_none rfl rfl rfl
  startedUp h := h.startedUp

/-- Settles O32: an output is written only with the order that it follows, and a HOT_LINE joins only with the close output
released. -/
theorem outputsStaySafe : Obligations.OutputsStaySafe := keeps_step outputsSafe_kept

/-! ## The loss counter, the measurement state and MEASURE (R11, R12, R14) -/

/-- The counter, the state and the presence of MEASURE as they were. -/
theorem MeasureSafe.congr {p q : Part} (h : MeasureSafe p) (hi : q.intake.loss = p.intake.loss) (hs : q.intake.state = p.intake.state)
    (hb : q.hasBlock .measure = p.hasBlock .measure) : MeasureSafe q :=
  ⟨hi ▸ h.bounded, by rw [hi, hs]; exact h.good, by rw [hi, hs]; exact h.lost, by rw [hb, hs]; exact h.block⟩

/-- Intake and the list as they were. -/
theorem MeasureSafe.same {p q : Part} (h : MeasureSafe p) (hi : q.intake = p.intake) (he : q.entries = p.entries) :
    MeasureSafe q := h.congr (by rw [hi]) (by rw [hi]) (Part.hasBlock_congr he _)

/-- A cold start leaves the measurement LOST with its counter full and MEASURE in the list (R16, R94). -/
theorem MeasureSafe.coldStarted (r : ColdReads) (p : Part) : MeasureSafe (coldStarted r p) where
  bounded := le_rfl
  good h := by cases h
  lost _ := Nat.succ_pos 31
  block := by simp [Machine.coldStarted, startPart, readContacts, Part.hasBlock, startEntries, startMeasure, Part.reset]

theorem MeasureSafe.startedUp {p : Part} (h : MeasureSafe p) : MeasureSafe (startedUp p) := by
  unfold Machine.startedUp
  split
  · exact h
  · split
    · exact h.same rfl rfl
    · refine h.congr ?_ ?_ ?_ <;> simp [weighLines, startTimers, Part.hasBlock]

theorem measureSafe_kept : Kept MeasureSafe where
  clock _ h := h.same rfl rfl
  seq _ h := h.same rfl rfl
  hunt _ h := h.same rfl rfl
  records _ h := h.same rfl rfl
  table _ h := h.same rfl rfl
  store _ h := h.same rfl rfl
  posture _ _ h := h.same rfl rfl
  notices _ _ h := h.same rfl rfl
  holdoff _ _ h := h.same rfl rfl
  link _ _ _ h := h.same rfl rfl
  elements _ _ h := h.same rfl rfl
  elementsOpened h := h.same rfl rfl
  elementsRun h := h.congr rfl rfl rfl
  countOpen {p} h := by
    unfold countOpen
    split
    · exact h
    · exact h.same rfl rfl
  readContacts _ _ h := h.same rfl rfl
  mech _ _ _ _ h := h.same rfl rfl
  orderEnds h := h.same rfl rfl
  tripBegins _ _ _ _ _ h := h.same rfl rfl
  closeBegins _ _ _ _ _ h := h.same rfl rfl
  entryJoins e hm _ h := h.congr rfl rfl (by simp [Part.hasBlock, hm])
  entriesLeave {p} f hf h := h.congr rfl rfl (by
    unfold Part.hasBlock
    rw [Bool.eq_iff_iff]
    simp only [List.any_eq_true, List.mem_filter, decide_eq_true_eq]
    exact ⟨fun ⟨e, he, hk⟩ => ⟨e, he.1, hk⟩, fun ⟨e, he, hk⟩ => ⟨e, ⟨he, hf e hk⟩, hk⟩⟩)
  entriesChange f hf h := h.congr rfl rfl (any_kind_map _ hf _)
  intake _ hx h := hx h
  measureJoins _ _ _ hx h := hx h
  measureLeaves _ hx h := hx h
  coldStarted r := .coldStarted r _
  startedUp h := h.startedUp

/-- Settles O25: the counter, the state and the block move together in the counts of frames alone. -/
theorem measurementStaysSafe : Obligations.MeasurementStaysSafe := keeps_step measureSafe_kept

/-! ## At reset -/

/-- Settles O21: outputs and lines are released, the intake is LOST with MEASURE in the list, the counts are in range, and the
selection is the one that the inputs at delivery give. -/
theorem invariantsHoldAtReset : Obligations.InvariantsHoldAtReset := by
  refine ⟨.of_none rfl rfl rfl, ⟨le_rfl, ?_, ?_, ?_⟩, fun m => ?_, countsBounded_reset, rfl⟩
  · exact fun h => by cases h
  · exact fun _ => by decide
  · decide
  · cases m <;> rfl

end Sys2Proof.Machine

end Invariants

/-! THE QUEUE, THE CLOCK AND THE MASTER LINKS (00, 10): a step and what it takes, the frames of requests, and what a link does
with bytes, frames, requests, answers and its timers. -/

section QueueAndLinks

namespace Sys2Proof.Machine

/-! ## The queue and the clock -/

/-- Settles O1: a step takes the front of the queue. -/
theorem stepTakesFrontOfQueue : Obligations.StepTakesFrontOfQueue := by
  intro c rest s h
  simp [step, h]

/-- Every command is an effect on the part, with the queue left as it is. -/
theorem exec_eq_after (c : Instr) (s : State) : ∃ f : Part → Part, exec c s = after f s := by
  cases c <;> exact ⟨_, rfl⟩

/-- Settles O3: each command is an effect on the part alone. -/
theorem everyCommandAnswersNext : Obligations.EveryCommandAnswersNext := by
  intro c s
  obtain ⟨f, hf⟩ := exec_eq_after c s
  exact ⟨_, hf, rfl⟩

/-- A list that holds a deadline has an earliest one. -/
theorem earliest_isSome {l : List Deadline} {d : Deadline} (h : d ∈ l) : ∃ e : Deadline, earliest l = some e := by
  cases l with
  | nil => cases h
  | cons a l =>
    unfold earliest
    split
    · exact ⟨_, rfl⟩
    · split <;> exact ⟨_, rfl⟩

theorem step_of_no_command {s : State} (h : s.pending = []) : step s = idle s := by simp [step, h]

/-- Settles O2: before start-up is over nothing is due; afterwards the earliest of the reached deadlines is taken, and with none
reached the clock moves by one. -/
theorem idleStepTakesEarliestExpiry : Obligations.IdleStepTakesEarliestExpiry := by
  intro s noCommand
  rw [step_of_no_command noCommand]
  refine ⟨fun before => ?_, fun started ahead => ?_, fun started d hd reached => ?_⟩
  · simp [idle, before]
  · have nothing : (s.toPart.deadlines.filter fun d => d.moment ≤ s.clock) = [] := by
      simpa [List.filter_eq_nil_iff] using ahead
    simp [idle, started, Part.due, nothing, earliest, passTime, State.withPart]
  · have isReached : d ∈ s.toPart.deadlines.filter fun d => d.moment ≤ s.clock := by simp [hd, reached]
    obtain ⟨e, he⟩ := earliest_isSome isReached
    obtain ⟨mem, first⟩ := earliest_eq_some he
    refine ⟨e, List.mem_of_mem_filter mem, first d isReached, ?_⟩
    simp [idle, started, Part.due, he]

/-! ## Frames of requests (R178, R187) -/

theorem byte_toNat (b : Byte) : byte b.toNat = b := by simp [byte]

theorem requestOf0_eq {code : Nat} {r : Request} (h : requestOf0 code = some r) : r.code = code ∧ r.body = [] := by
  unfold requestOf0 at h
  split at h <;> cases h <;> exact ⟨rfl, rfl⟩

theorem requestOf1_eq {code : Nat} {b0 : Byte} {r : Request} (h : requestOf1 code b0 = some r) :
    r.code = code ∧ r.body = [b0] := by
  unfold requestOf1 at h
  split at h <;> cases h <;> exact ⟨rfl, rfl⟩

theorem requestOf2_eq {code : Nat} {b0 b1 : Byte} {r : Request} (h : requestOf2 code b0 b1 = some r) :
    r.code = code ∧ r.body = [b0, b1] := by
  unfold requestOf2 at h
  split at h <;> cases h <;> simp [Request.code, Request.body, splitHalf_join]

theorem requestOf4_eq {code : Nat} {b0 b1 b2 b3 : Byte} {r : Request} (h : requestOf4 code b0 b1 b2 b3 = some r) :
    r.code = code ∧ r.body = [b0, b1, b2, b3] := by
  unfold requestOf4 at h
  split at h <;> cases h <;> simp [Request.code, Request.body, splitHalf_join]

/-- A code and a body read as a request that has them. -/
theorem requestOf_eq {code : Nat} {body : List Byte} {r : Request} (h : requestOf code body = some r) :
    r.code = code ∧ r.body = body := by
  unfold requestOf at h
  split at h
  · exact requestOf0_eq h
  · exact requestOf1_eq h
  · exact requestOf2_eq h
  · split at h
    next hc => cases h; exact ⟨hc.symm, rfl⟩
    next => cases h
  · exact requestOf4_eq h
  · split at h
    next hc => cases h; exact ⟨hc.symm, by simp [Request.body, splitLong_join]⟩
    next => cases h
  · cases h

/-- A frame that reads as a request is that request's frame. -/
theorem frame_of_readRequest {frame : List Byte} {r : Request} (h : readRequest frame = some r) : frame = r.frame := by
  cases frame with
  | nil => cases h
  | cons code body =>
    obtain ⟨hc, hb⟩ := requestOf_eq (code := code.toNat) h
    rw [Request.frame, hc, hb, byte_toNat]

/-- Settles O4: the frame is read back code by code, and a code with a body has one request. -/
theorem requestFramesRoundTrip : Obligations.RequestFramesRoundTrip :=
  ⟨readRequest_frame_self, fun _ _ => frame_of_readRequest⟩

/-- A frame that has no request's code with that request's length is malformed (R178). -/
theorem readRequest_eq_none {frame : List Byte}
    (h : ∀ r : Request, frame.head? = some (byte r.code) → frame.length ≠ r.frame.length) : readRequest frame = none := by
  rw [Option.eq_none_iff_forall_ne_some]
  intro r hr
  obtain rfl := frame_of_readRequest hr
  exact h r rfl rfl

/-! ## Requests on a link (R177, R178, R181) -/

/-- A request that the role may make is answered by its owner on a FREE link (R178). -/
theorem exec_command_of_allowed {k : LinkId} {m : Master} {s : State} (h : s.toPart.serves k m) {r : Request}
    (right : mayRequest m r = true) :
    exec (r.command k) s =
      .next (s.withPart ((ownerTakes k m r (s.toPart.found k m r)).1.answer k r
        (ownerTakes k m r (s.toPart.found k m r)).2)) := by
  rw [exec_command_of_serves h, weigh_allowed right]

/-- A request that the role may not make is answered NO_RIGHT on a FREE link (R181). -/
theorem exec_command_of_refused {k : LinkId} {m : Master} {s : State} (h : s.toPart.serves k m) {r : Request}
    (noRight : mayRequest m r = false) :
    exec (r.command k) s = .next (s.withPart ((s.toPart.found k m r).answer k r ⟨.noRight, [], false⟩)) := by
  rw [exec_command_of_serves h, weigh_refused noRight]

/-- Settles O5. -/
theorem requestTakenByFreeLink : Obligations.RequestTakenByFreeLink := fun _ _ _ _ h right => exec_command_of_allowed h right

/-- The requests outside a role's rights, by their codes (R181). -/
theorem mayRequest_eq_false {m : Master} {r : Request}
    (h : (m = .crew ∧ r.code ∈ [3, 8, 9, 14, 15, 17, 24]) ∨ (m ≠ .control ∧ r.code ∈ [18, 21, 22, 27]) ∨
      (m ≠ .bay ∧ r.code ∈ [19, 20])) : mayRequest m r = false := by
  cases r <;> cases m <;> simp_all [Request.code, mayRequest]

/-- Settles O6. -/
theorem requestWithoutRightRefused : Obligations.RequestWithoutRightRefused :=
  fun _ _ _ _ h outside => exec_command_of_refused h (mayRequest_eq_false outside)

/-- A link in service hands a complete frame to its service side (R175, R185). -/
theorem request_of_inService {k : LinkId} {m : Master} {p : Part} (h : p.inService k m) (r : Request) :
    request k r p = deliver k r.frame p := by
  simp [request, h.started, h.role]

/-- A BUSY link with its waiting place empty keeps the frame there (R177). -/
theorem deliver_waits {k : LinkId} {p : Part} (frame : List Byte) (busy : (p.links.get k).busy = true)
    (empty : (p.links.get k).waiting = none) :
    deliver k frame p = setLink k { p.links.get k with waiting := some frame } p := by
  simp [deliver, busy, empty]

/-- A BUSY link with its waiting place taken counts an overrun (R177). -/
theorem deliver_overruns {k : LinkId} {p : Part} {held : List Byte} (frame : List Byte)
    (busy : (p.links.get k).busy = true) (taken : (p.links.get k).waiting = some held) :
    deliver k frame p = countBad k p := by
  simp [deliver, busy, taken]

/-- A FREE link takes the frame (R177). -/
theorem deliver_taken {k : LinkId} {p : Part} (frame : List Byte) (free : (p.links.get k).busy = false) :
    deliver k frame p = takeFrameOn k frame p := by
  simp [deliver, free]

/-- Settles O7: a request out of service is ignored; a BUSY link keeps one frame and counts the next as an overrun. -/
theorem requestNotTakenAtOnce : Obligations.RequestNotTakenAtOnce := by
  intro k r s
  rw [exec_command, after]
  refine ⟨fun out => ?_, fun m inService busy => ⟨fun empty => ?_, fun frame taken => ?_⟩⟩
  · have ignored : request k r s.toPart = s.toPart := by
      rcases out with out | out <;> simp [request, out]
    rw [ignored]
  · rw [request_of_inService inService, deliver_waits _ busy empty, State.withPart]
  · rw [request_of_inService inService, deliver_overruns _ busy taken, State.withPart]

/-! ## Health (R179) -/

/-- The link that a malformed frame or an overrun leaves (R179). -/
theorem countBad_get (k : LinkId) (p : Part) :
    (countBad k p).links.get k =
      { p.links.get k with
        health := min ((p.links.get k).health + 1) 32
        faulty := (p.links.get k).faulty || 32 ≤ (p.links.get k).health + 1 } := by
  unfold countBad
  dsimp only
  split
  next full =>
    simp only [Bool.and_eq_true, decide_eq_true_eq] at full
    have reached : 32 ≤ (p.links.get k).health + 1 := min_eq_right_iff.mp full.1
    simp [counterFull, reached]
  next notFull =>
    simp only [Bool.and_eq_true, decide_eq_true_eq, not_and, Bool.not_eq_true', Bool.not_eq_false] at notFull
    rw [setLink_links, PerLink.get_set_self]
    congr 1
    cases faulty : (p.links.get k).faulty with
    | false =>
      have below : ¬32 ≤ (p.links.get k).health + 1 := fun reached => by
        simp [notFull (min_eq_right_iff.mpr reached)] at faulty
      simpa using below
    | true => rfl

theorem countBad_get_ne {j k : LinkId} (h : j ≠ k) (p : Part) : (countBad k p).links.get j = p.links.get j := by
  unfold countBad
  dsimp only
  split <;> simp [PerLink.get_set_ne _ _ h]

/-- A count touches the links and the notices alone. -/
theorem countBad_eq (k : LinkId) (p : Part) :
    countBad k p = { p with links := (countBad k p).links, notices := (countBad k p).notices } := by
  unfold countBad
  dsimp only
  split
  · rw [raiseLinkFault_eq]
    rfl
  · rfl

/-- Below 32, or on a FAULTY link, a count raises nothing (R179). -/
theorem countBad_notices {k : LinkId} {p : Part}
    (h : (p.links.get k).faulty = true ∨ (p.links.get k).health + 1 < 32) : (countBad k p).notices = p.notices := by
  unfold countBad
  dsimp only
  rw [if_neg]
  · rfl
  · simp only [Bool.and_eq_true, decide_eq_true_eq, Bool.not_eq_true']
    rintro ⟨full, ok⟩
    have reached : 32 ≤ (p.links.get k).health + 1 := min_eq_right_iff.mp full
    rcases h with h | h
    · simp [h] at ok
    · omega

/-- At 32 a link becomes FAULTY and the masters of the other roles are told (R161, R179). -/
theorem countBad_pendingFor {k : LinkId} {m : Master} {p : Part} (role : (p.links.get k).role = .held m)
    (ok : (p.links.get k).faulty = false) (full : 32 ≤ (p.links.get k).health + 1) (x : Master) (n : NoticeKind) :
    (countBad k p).pendingFor x n = (p.pendingFor x n || (decide (n = .linkFault) && decide (x ≠ m))) := by
  unfold countBad
  dsimp only
  rw [if_pos (by simp [counterFull, ok]; omega), raiseLinkFault_pendingFor (m := m) (by simpa using role)]
  rfl

/-- A recomputation leaves the links. -/
theorem found_links (p : Part) (k : LinkId) (m : Master) (r : Request) :
    (p.found k m r).links.get k =
      { p.links.get k with
        busy := true, inHand := some r.frame, health := (p.links.get k).health - 1
        faulty := (p.links.get k).faulty && 1 < (p.links.get k).health } := by
  unfold Part.found wellFormed
  have heardLinks : ∀ q : Part, (heard m q).links = q.links := fun q => by simp
  rw [heardLinks, countGood_links]
  simp

/-- CONTROL heard is no longer silent, and its silence is timed afresh (R112). -/
theorem controlHeard_silence (p : Part) :
    (controlHeard p).posture.silent = false ∧
      (controlHeard p).posture.silenceTimer = some (p.clock + p.posture.silenceMinutes * 60000) := by
  unfold controlHeard
  dsimp only
  split
  · unfold recompute
    simp [Part.timer]
  next h => exact ⟨by simpa using h, rfl⟩

/-- On a link whose state stays as it is a good frame changes the count alone (R179). -/
theorem countGood_of_steady {k : LinkId} {p : Part}
    (h : (p.links.get k).faulty = false ∨ 1 < (p.links.get k).health) :
    countGood k p = setLink k { p.links.get k with health := (p.links.get k).health - 1 } p := by
  unfold countGood
  dsimp only
  rw [if_neg]
  simp only [Bool.and_eq_true, decide_eq_true_eq]
  rintro ⟨zero, faulty⟩
  rcases h with h | h
  · simp [h] at faulty
  · omega

/-- Settles O8: a bad frame by the lemmas on `countBad`; a good one makes the link BUSY, counts, and is heard from CONTROL. -/
theorem framesMoveHealth : Obligations.FramesMoveHealth := by
  intro k m p role l
  refine ⟨⟨countBad_eq k p, countBad_get k p, fun j hj => countBad_get_ne hj p, countBad_notices,
    fun ok full => countBad_pendingFor role ok full⟩, fun r => ⟨found_links p k m r, ?_, ?_⟩⟩
  · rintro rfl
    have silence := controlHeard_silence
      (countGood k (setLink k { p.links.get k with busy := true, inHand := some r.frame } p))
    simpa [Part.found, wellFormed, heard] using silence
  · intro hm steady
    have notControl : ∀ q : Part, heard m q = q := fun q => by
      cases m with
      | control => exact absurd rfl hm
      | bay | crew => rfl
    change heard m _ = _
    rw [notControl, countGood_of_steady (by simpa using steady)]
    simp [l]

/-! ## Answers, bytes and timers (R176, R177) -/

/-- Settles O9: the freed link takes the waiting frame as it takes a request that arrives. -/
theorem answerSentFreesLink : Obligations.AnswerSentFreesLink := by
  intro k m a s inService answered sendable freed
  have gone : exec (.answerSent k) s = .next (s.withPart (becomeFree k s.toPart)) := by
    change Host.Outcome.next (s.withPart (answerGone k s.toPart)) = _
    simp [answerGone, answered, sendable]
  refine ⟨fun empty => ?_, fun r taken => ?_⟩
  · rw [gone]
    simp [becomeFree, empty, freed]
  · have freedInService : freed.toPart.inService k m := ⟨inService.started, by simpa [freed] using inService.role⟩
    rw [gone, exec_command, after, request_of_inService freedInService, deliver_taken _ (by simp [freed])]
    simp [becomeFree, taken, freed, State.withPart]

/-- A byte on a link in service is taken by its receive side (R176). -/
theorem receiveByte_of_inService {k : LinkId} {m : Master} {p : Part} (h : p.inService k m) (b : Byte) :
    receiveByte k b p = byteTaken k b p := by
  simp [receiveByte, h.started, h.role]

theorem byteTaken_of_quietWait {k : LinkId} {p : Part} (b : Byte) (h : (p.links.get k).receive = .quietWait) :
    byteTaken k b p = setLink k { p.links.get k with quietTimer := p.timer 5 } p := by
  rw [byteTaken, h]

theorem byteTaken_of_idle {k : LinkId} {p : Part} (b : Byte) (h : (p.links.get k).receive = .idle) :
    byteTaken k b p = lengthByte k b p := by
  rw [byteTaken, h]

theorem byteTaken_of_inFrame {k : LinkId} {p : Part} (b : Byte) (h : (p.links.get k).receive = .inFrame) :
    byteTaken k b p = frameByte k b p := by
  rw [byteTaken, h]

/-- Settles O10: the receive state decides, and in IDLE the value of the length byte. -/
theorem linkByteReceived : Obligations.LinkByteReceived := by
  intro k m b s inService l
  have received : exec (.linkByteReceived k b) s = .next (s.withPart (byteTaken k b s.toPart)) := by
    rw [← receiveByte_of_inService inService]
    rfl
  have receivedBad : exec (.badLengthByte k b) s = .next (s.withPart (byteTaken k b s.toPart)) := received
  refine ⟨fun quiet => ?_, fun idle low high => ?_, fun inFrame more => ?_, fun idle bad => ?_⟩
  · rw [received, byteTaken_of_quietWait b quiet]
    rfl
  · have nonzero : b ≠ 0 := by rintro rfl; exact absurd low (by decide)
    have good : badLength b = false := by
      simpa [badLength, high] using nonzero
    rw [received, byteTaken_of_idle b idle, lengthByte, good]
    rfl
  · rw [received, byteTaken_of_inFrame b inFrame]
    unfold frameByte
    dsimp only
    rw [if_neg (not_le.mpr more)]
    rfl
  · have malformed : badLength b = true := by
      rcases bad with bad | bad <;> simp [badLength, bad]
    rw [receivedBad, byteTaken_of_idle b idle, lengthByte, malformed]
    rfl

/-- The byte that completes a frame delivers it (R176). -/
theorem byteTaken_completes {k : LinkId} {p : Part} (b : Byte) (inFrame : (p.links.get k).receive = .inFrame)
    (last : (p.links.get k).length = (p.links.get k).bytes.length + 1) :
    byteTaken k b p = deliver k ((p.links.get k).bytes ++ [b]) (setLink k (p.links.get k).idled p) := by
  rw [byteTaken_of_inFrame b inFrame]
  unfold frameByte
  dsimp only
  rw [if_pos (le_of_eq last)]

/-- Settles O11: the last byte delivers the frame to the service side, as a request delivers its own. -/
theorem completedFrameArrives : Obligations.CompletedFrameArrives := by
  intro k m b s inService inFrame last frame idle ended
  have arrives : exec (.requestFrame k b) s = .next (s.withPart (deliver k frame ended)) := by
    have completed := byteTaken_completes b inFrame last
    rw [← receiveByte_of_inService inService] at completed
    exact congrArg (fun q => Host.Outcome.next (s.withPart q)) completed
  have endedInService : (s.withPart ended).toPart.inService k m :=
    ⟨inService.started, by simpa [ended, idle] using inService.role⟩
  have sameBusy : (ended.links.get k).busy = (s.links.get k).busy := by simp [ended, idle]
  refine ⟨fun r hr => ?_, fun malformed free => ?_, fun busy empty => ?_, fun held busy taken => ?_⟩
  · have asRequest : exec (.requestFrame k b) s = exec (r.command k) (s.withPart ended) := by
      rw [arrives, exec_command, after, request_of_inService endedInService, hr]
      rfl
    refine ⟨asRequest, fun free right => ?_, fun free noRight => ?_⟩
    · rw [asRequest, exec_command_of_allowed ⟨endedInService, sameBusy.trans free⟩ right]
      rfl
    · rw [asRequest, exec_command_of_refused ⟨endedInService, sameBusy.trans free⟩ noRight]
      rfl
  · rw [arrives, deliver_taken _ (sameBusy.trans free), takeFrameOn, show (ended.links.get k).role = .held m from endedInService.role,
      readRequest_eq_none malformed]
  · rw [arrives, deliver_waits _ (sameBusy.trans busy) (by simpa [ended, idle] using empty)]
    simp [ended]
  · rw [arrives, deliver_overruns _ (sameBusy.trans busy) (by simpa [ended, idle] using taken)]

/-- The expiry of a running timer: the clock reaches its end and the rule follows. -/
theorem expired_some {t : Option Nat} {e : Nat} (h : t = some e) (f : Part → Part) (p : Part) :
    expired t f p = f (p.reach e) := by
  subst h
  rfl

/-- Settles O12: each timer stops, and ends the receive state that it timed. -/
theorem linkTimersExpire : Obligations.LinkTimersExpire := by
  intro k e s
  refine ⟨fun timed inFrame => ?_, fun timed quiet => ?_⟩
  · change Host.Outcome.next (s.withPart (expired _ (gapEnded k) s.toPart)) = _
    rw [expired_some timed, gapEnded]
    simp [inFrame, Link.idled, Part.reach]
  · change Host.Outcome.next (s.withPart (expired _ (quietWaitEnded k) s.toPart)) = _
    rw [expired_some timed, quietWaitEnded]
    simp [quiet, Part.reach]

end Sys2Proof.Machine

end QueueAndLinks

/-! NOTICES (09), and the statements of one operation each: RESET LINK, CLEAR QUALITY, the ends of the windows of Elements, a held
step, and a contact change that leaves the breaker unsettled. -/

section NoticesAndSmallRules

namespace Sys2Proof.Machine

/-! ## RESET LINK (R174, R184) -/

/-- A link reset touches the links and the notices alone. -/
theorem askResetLink_eq (k : LinkId) (m : Master) (p : Part) :
    (askResetLink k m p).1 =
      { p with links := (askResetLink k m p).1.links, notices := (askResetLink k m p).1.notices } := by
  unfold askResetLink resetNotices resetHealth
  dsimp only
  split
  · rw [raiseLinkFault_eq]
    rfl
  · rfl

/-- The link that a reset leaves (R184). -/
theorem askResetLink_get (k : LinkId) (m : Master) (p : Part) :
    (askResetLink k m p).1.links.get k =
      { p.links.get k with
        receive := .quietWait, length := 0, bytes := [], gapTimer := none, quietTimer := some (p.clock + 5)
        waiting := none, health := 0, faulty := false } := by
  simp [askResetLink, resetNotices, resetHealth_links, Link.cleared, Part.timer]

theorem resetHealth_role (k j : LinkId) (p : Part) : ((resetHealth k p).links.get j).role = (p.links.get j).role := by
  rw [resetHealth_links, PerLink.get_set]
  split
  next hj => rw [hj]
  next => rfl

/-- The master of a link that is reset has READY alone pending, and is shown it (R174). -/
theorem askResetLink_notices {k : LinkId} {m : Master} {p : Part} (started : p.started = true)
    (role : (p.links.get k).role = .held m) :
    (askResetLink k m p).1.notices.get m =
      { latched := 4096, mask := 0, holdoff := 20, holdoffTimer := none, line := true } := by
  have shown : (resetHealth k (setLink k ((p.links.get k).cleared (p.timer 5)) p)).showsLine m = true := by
    refine Part.showsLine_of_role (k := k) ?_ (by simpa using started)
    rw [resetHealth_role]
    simpa [Link.cleared] using role
  change ((setNotices m freshNotices _).notices.get m) = _
  rw [setNotices_notices, PerMaster.get_set_self, shown]
  rfl

/-- The other masters are told that a FAULTY link is OK again (R161, R184). -/
theorem askResetLink_pendingFor {k : LinkId} {m : Master} {p : Part} (role : (p.links.get k).role = .held m) {x : Master}
    (hx : x ≠ m) (n : NoticeKind) :
    (askResetLink k m p).1.pendingFor x n =
      (p.pendingFor x n || (decide (n = .linkFault) && (p.links.get k).faulty)) := by
  have others : (askResetLink k m p).1.pendingFor x n =
      (resetHealth k (setLink k ((p.links.get k).cleared (p.timer 5)) p)).pendingFor x n := by
    simp [askResetLink, resetNotices, Part.pendingFor, PerMaster.get_set_ne _ _ hx]
  rw [others]
  unfold resetHealth
  dsimp only
  split
  next faulty =>
    rw [raiseLinkFault_pendingFor (m := m) (by simpa [Link.cleared] using role)]
    have faulty' : (p.links.get k).faulty = true := by simpa [Link.cleared] using faulty
    simp [faulty', hx]
  next ok =>
    have ok' : (p.links.get k).faulty = false := by simpa [Link.cleared] using ok
    simp [ok']

/-- A link in service is found in service by the owner of a request. -/
theorem Part.inService.found {k : LinkId} {m : Master} {p : Part} (h : p.inService k m) (r : Request) :
    (p.found k m r).inService k m :=
  ⟨(found_started p k m r).trans h.started, by rw [found_links]; exact h.role⟩

/-- Settles O13: the link, its master's notices and the others' by the lemmas on `askResetLink`. -/
theorem resetLinkActs : Obligations.ResetLinkActs := by
  intro k m s h p
  have found := h.toinService.found .resetLink
  have taken := exec_command_of_allowed h (r := .resetLink) rfl
  refine ⟨_, taken, rfl, ?_, ?_, ?_, fun x n hx => ?_⟩
  · change giveAnswer k .resetLink _ (askResetLink k m p).1 = _
    rw [askResetLink_eq]
    rfl
  · change ((askResetLink k m p).1.links.set k _).get k = _
    rw [PerLink.get_set_self]
    exact congrArg (fun l : Link => { l with answer := some ⟨[2, 30, 0], false⟩ }) (askResetLink_get k m _)
  · exact askResetLink_notices found.started found.role
  · exact askResetLink_pendingFor found.role hx n

/-! ## Raising, reading and masking (R161 to R168) -/

/-- A raising leaves masks, holdoffs and their timers. -/
theorem raise_keeps_holdoff (n : NoticeKind) (p : Part) (x : Master) :
    ((raise n p).notices.get x).mask = (p.notices.get x).mask ∧
      ((raise n p).notices.get x).holdoff = (p.notices.get x).holdoff ∧
      ((raise n p).notices.get x).holdoffTimer = (p.notices.get x).holdoffTimer := by
  unfold raise
  split <;> simp [latch_kept]

/-- Settles O14. -/
theorem raiseLatchesReceivers : Obligations.RaiseLatchesReceivers :=
  fun n p _ _ => ⟨raise_eq n p, fun m => ⟨fun x => raise_pendingFor n p m x, raise_keeps_holdoff n p m⟩⟩

/-- Settles O15: the kind with none eligible before it is the first one. -/
theorem readNoticeTakesFirstKind : Obligations.ReadNoticeTakesFirstKind := by
  intro k m n s h p old new eligible noneBefore
  have read := exec_command_of_allowed h (r := .readNotice) rfl
  have first : old.first = some n := old.first_eq_some n eligible noneBefore
  have taken : takeKind m n p = setNotices m new p := rfl
  have asked : askReadNotice m p = (setNotices m new p, Reply.done (noticeBody n.priority new)) := by
    change (match old.first with
      | none => _
      | some x => _) = _
    rw [first]
    simp [taken, noticeBody]
  change exec (.readNotice k) s = .next (s.withPart ((askReadNotice m p).1.answer k .readNotice (askReadNotice m p).2)) at read
  rw [read, asked]
  rfl

/-- The mask as applied: TRIP is cleared, and the mask is otherwise the one given (R168). -/
theorem appliedMask_toNat {mask : Half} (h : mask.toNat < 8192) :
    (appliedMask mask).toNat = mask.toNat - mask.toNat % 2 := by
  have split : appliedMask mask = BitVec.ofNat 13 (mask.toNat - mask.toNat % 2) := by
    refine BitVec.eq_of_getLsbD_eq fun i hi => ?_
    have even : mask.toNat - mask.toNat % 2 = mask.toNat / 2 * 2 := by omega
    rw [even]
    simp only [appliedMask, NoticeKind.bit, NoticeKind.priority, BitVec.getLsbD_and, BitVec.getLsbD_not,
      BitVec.getLsbD_setWidth, BitVec.getLsbD_twoPow, BitVec.getLsbD_ofNat, hi, decide_true, Bool.true_and]
    cases i with
    | zero => simp
    | succ j => simp [Nat.testBit_succ, BitVec.getLsbD]
  rw [split, BitVec.toNat_ofNat]
  exact Nat.mod_eq_of_lt (by omega)

/-- Settles O17: out of range, or the mask applied with the line weighed. -/
theorem setNoticeMaskApplied : Obligations.SetNoticeMaskApplied := by
  intro k m mask s h r p
  have taken := exec_command_of_allowed h (r := r) rfl
  change exec (.setNoticeMask k mask) s = .next (s.withPart ((askSetMask m mask p).1.answer k r (askSetMask m mask p).2))
    at taken
  refine ⟨fun high => ?_, fun low => ?_⟩
  · rw [taken, askSetMask, if_pos high]
    rfl
  · have applied : askSetMask m mask p =
        (setNotices m { p.notices.get m with mask := appliedMask mask } p, Reply.done (bytes2 (appliedMask mask).toNat)) :=
      if_neg (not_le.mpr low)
    rw [applied] at taken
    have shown : ((setNotices m { p.notices.get m with mask := appliedMask mask } p).notices.get m).mask =
        appliedMask mask := by simp
    refine ⟨_, taken, ?_, ?_⟩
    · simp only [State.withPart_toPart, Part.answer_notices, shown]
      rfl
    · exact (congrArg BitVec.toNat shown).trans (appliedMask_toNat low)

/-- Settles O19: the timer stopped, the line is what is shown and eligible. -/
theorem holdoffExpiryWeighsLine : Obligations.HoldoffExpiryWeighsLine := by
  intro m e s timed
  change Host.Outcome.next (s.withPart (expired _ (holdoffEnded m) s.toPart)) = _
  rw [expired_some timed]
  have weighed : ({ s.notices.get m with holdoffTimer := none } : MasterNotices).lineLevel (s.toPart.showsLine m) =
      (s.toPart.showsLine m && decide ((s.notices.get m).eligible ≠ 0)) := by
    simp only [MasterNotices.lineLevel, Option.isNone_none, Bool.and_true]
    rfl
  rw [← weighed]
  rfl

/-! ## Elements and Intake: one operation each -/

/-- Settles O31. -/
theorem elementWindowsEnd : Obligations.ElementWindowsEnd := fun _ => ⟨rfl, rfl, rfl⟩

/-- A frame step with the breaker not CLOSED counts the open time (R20). -/
theorem countOpen_of_not_closed {p : Part} (h : p.position ≠ .closed) :
    countOpen p = { p with elements := { p.elements with openCount := min (p.elements.openCount + 1) 360000 } } := if_neg h

theorem countOpen_of_closed {p : Part} (h : p.position = .closed) : countOpen p = p := if_pos h

theorem countOpen_position (p : Part) : (countOpen p).position = p.position := by simp [Part.position]

/-- Settles O29: a step that does not run leaves the open count alone to move. -/
theorem heldStepKeepsElements : Obligations.HeldStepKeepsElements := by
  intro p notClosed noStroke
  have held : (countOpen p).runs = false := by
    have still : (countOpen p).mech = p.mech := by simp
    simp only [Part.runs, countOpen_position, still]
    simpa [notClosed] using noStroke
  rw [elementsStep]
  simp only [held, Bool.false_eq_true, if_false]
  exact countOpen_of_not_closed notClosed

/-- Settles O26. -/
theorem clearQualityClearsFlags : Obligations.ClearQualityClearsFlags := by
  intro k m s h p clear
  refine ⟨fun hm => ?_, fun hm => ?_⟩
  · exact exec_command_of_allowed h (r := .clearQuality) (by simpa [mayRequest] using hm)
  · exact exec_command_of_refused h (r := .clearQuality) (by simp [mayRequest, hm])

/-- A multiple reaches 64 sixty-fourths exactly at the pickup (R22). -/
theorem multiple_reaches_iff {v pickup : Nat} (h : 0 < pickup) : 64 ≤ min (v * 64 / pickup) 1280 ↔ pickup ≤ v := by
  rw [le_min_iff, Nat.le_div_iff_mul_le h]
  omega

/-- Settles O27: CLIPPED is the full multiple, and any other value reaches pickup exactly at 64 sixty-fourths. -/
theorem pickedUpExactlyAtPickup : Obligations.PickedUpExactlyAtPickup := by
  intro c pickup v positive available value
  refine ⟨fun clipped => ?_, fun measured => ?_⟩
  · have multiple : c.multiple pickup = some 1280 := by simp [Channel.multiple, available, clipped]
    exact ⟨multiple, by simp [Channel.pickedUp, multiple]⟩
  · have multiple : c.multiple pickup = some (min (v * 64 / pickup) 1280) := by
      simp [Channel.multiple, available, measured, value]
    refine ⟨multiple, ?_⟩
    rw [Channel.pickedUp, multiple]
    exact decide_eq_true_iff.trans (multiple_reaches_iff positive)

/-! ## Contacts (R41, R43) -/

/-- The OPEN contact alone is OPEN (R41). -/
theorem contactsChanged_opened {p : Part} (started : p.started = true)
    (moved : ¬(p.mech.openMade = true ∧ p.mech.closedMade = false)) :
    contactsChanged true false p = becomesOpen (moveContacts true false p) := by
  rw [contactsChanged, if_neg (by simpa using moved), if_neg (by simp [started])]
  rfl

/-- The CLOSED contact alone is CLOSED (R41). -/
theorem contactsChanged_closed {p : Part} (started : p.started = true)
    (moved : ¬(p.mech.openMade = false ∧ p.mech.closedMade = true)) :
    contactsChanged false true p = becomesClosed (moveContacts false true p) := by
  rw [contactsChanged, if_neg (by simpa using moved), if_neg (by simp [started])]
  rfl

/-- Both contacts alike is TRAVEL or DISCREPANT: nothing is announced (R41, R42). -/
theorem contactsChanged_unsettled {made : Bool} {p : Part} (started : p.started = true)
    (moved : ¬(p.mech.openMade = made ∧ p.mech.closedMade = made)) :
    contactsChanged made made p = moveContacts made made p := by
  rw [contactsChanged, if_neg (by simpa using moved), if_neg (by simp [started])]
  cases made <;> rfl

/-- Settles O35: both contacts alike start the travel or the discrepancy timer. -/
theorem contactsUnsettled : Obligations.ContactsUnsettled := by
  intro made s started moved
  change Host.Outcome.next (s.withPart (contactsChanged made made s.toPart)) = _
  rw [contactsChanged_unsettled started moved]
  cases made <;> simp [moveContacts, Mechanism.position, Part.timer]

end Sys2Proof.Machine

end NoticesAndSmallRules

/-! SUPPORT. Closes placed with Mechanism, and the Sequencer's own moves: O41 to O45. -/
section SequencerMoves
namespace Sys2Proof.Machine

/-! ## Closes placed with Mechanism (R49) -/

/-- A close that no check of R49 refuses is accepted, with the close output asserted. -/
theorem placeClose_accepted {p : Part} (by' : Placer) (kind : CloseKind) (h : closeRefusal p = none) :
    placeClose by' kind p =
      (closeKindNamed kind
        { p with
          mech :=
            { p.mech with
              order := .close, placer := some by', orderTimer := some (p.clock + 300), closeOutput := true
              travelTimer := none } }, none) := by
  unfold placeClose
  rw [h]
  rfl

theorem placeClose_refused {p : Part} {why : Why} (by' : Placer) (kind : CloseKind) (h : closeRefusal p = some why) :
    placeClose by' kind p = (closeEnded p, some why) := by
  unfold placeClose
  rw [h]

/-- The automatic close of the pending shot, accepted (R63). -/
theorem automaticClose_accepted {p : Part} {k : Nat} (pending : p.seq.pendingShot = some k)
    (shots : k ≤ p.settings.shots.getD 0) (h : closeRefusal p = none) :
    automaticClose p =
      { p with
        mech :=
          { p.mech with
            order := .close, placer := some .sequencer, orderTimer := some (p.clock + 300), closeOutput := true
            travelTimer := none }
        elements := { p.elements with closeKind := .automatic }
        seq :=
          { p.seq with
            state := .closing, shotsUsed := k, pendingShot := none, purpose := .automatic, deadTimer := none
            closeWaitTimer := none } } := by
  unfold automaticClose
  rw [pending]
  simp only [not_lt.mpr shots, if_false, placeClose_accepted _ _ h]
  rfl

/-- With the list empty nothing blocks a close. -/
theorem hasBlock_of_entries_nil {p : Part} (h : p.entries = []) (k : BlockKind) : p.hasBlock k = false := by
  simp [Part.hasBlock, h]

/-- The conditions of an automatic close are those that Mechanism finds met (R49, R61). -/
theorem closeRefusal_of_recloseConditions {p : Part} (entries : p.entries = []) (energy : p.mech.energyHigh = true)
    (order : p.mech.order = .none) (opened : p.position = .opened) : closeRefusal p = none :=
  closeRefusal_eq_none_iff.mpr ⟨order, opened, energy, hasBlock_of_entries_nil entries _, hasBlock_of_entries_nil entries _⟩

theorem recloseConditions_iff {p : Part} :
    p.recloseConditions = true ↔ p.entries = [] ∧ p.intake.sourceLive = true ∧ p.mech.energyHigh = true := by
  simp [Part.recloseConditions, and_assoc]

/-! ## Timers of the Sequencer (R61, R62, R65) -/

/-- Settles O43. -/
theorem deadTimeExpiryTaken : Obligations.DeadTimeExpiryTaken := by
  intro e k s timer state pending
  refine ⟨fun entries live energy shots order opened => ?_, fun missing => ?_⟩
  all_goals
    change Host.Outcome.next (s.withPart (expired s.seq.deadTimer deadTimeEnded s.toPart)) = _
    rw [expired_some timer]
    unfold deadTimeEnded
  · have conditions : Part.recloseConditions
        { s.toPart.reach e with seq := { s.seq with deadTimer := none } } = true :=
      recloseConditions_iff.mpr ⟨entries, live, energy⟩
    have accepted : closeRefusal { s.toPart.reach e with seq := { s.seq with deadTimer := none } } = none :=
      closeRefusal_of_recloseConditions entries energy order opened
    dsimp only
    rw [if_pos (by exact state), if_pos (by exact conditions), automaticClose_accepted (by exact pending) (by exact shots)
      (by exact accepted)]
    rfl
  · have conditions : ¬Part.recloseConditions
        { s.toPart.reach e with seq := { s.seq with deadTimer := none } } = true := by
      rw [recloseConditions_iff]
      rintro ⟨entries, live, energy⟩
      rcases missing with h | h | h
      · exact h entries
      · exact absurd live (by simp [Part.reach, h])
      · exact absurd energy (by simp [Part.reach, h])
    dsimp only
    rw [if_pos (by exact state), if_neg (by exact conditions)]
    rfl

/-- Settles O44. -/
theorem sequencerWaitsEnd : Obligations.SequencerWaitsEnd := by
  intro e s
  refine ⟨fun timer state => ?_, fun timer state => ?_⟩
  · have taken : exec .closeWaitExpiry s = .next (s.withPart (enterLockout .closeWaitExpired
        { s.toPart.reach e with seq := { s.seq with closeWaitTimer := none } })) := by
      change Host.Outcome.next (s.withPart (expired s.seq.closeWaitTimer closeWaitEnded s.toPart)) = _
      rw [expired_some timer, closeWaitEnded, if_pos (by exact state)]
      rfl
    refine ⟨_, taken, rfl, rfl, ?_, rfl⟩
    exact raise_eq .lockout _
  · have taken : exec .reclaimExpiry s = .next (s.withPart (raise .recloseOk (enterClosed
        { s.toPart.reach e with seq := { s.seq with reclaimTimer := none } }))) := by
      change Host.Outcome.next (s.withPart (expired s.seq.reclaimTimer reclaimEnded s.toPart)) = _
      rw [expired_some timer, reclaimEnded, if_pos (by exact state)]
      rfl
    refine ⟨_, taken, rfl, rfl, rfl, rfl, ?_, rfl⟩
    exact raise_eq .recloseOk _

/-! ## Fault records (R153 to R155) -/

theorem nextNumber_bounds {n : Nat} (h1 : 1 ≤ n) (h2 : n ≤ 65535) :
    1 ≤ nextNumber n ∧ nextNumber n ≤ 65535 ∧ (nextNumber n = n + 1 ∨ (n = 65535 ∧ nextNumber n = 1)) := by
  unfold nextNumber
  split <;> omega

/-- What a record written leaves, but for the notices (R153, R154, R32). -/
theorem writeRecord_eq (f : TripFields) (p : Part) :
    writeRecord f p =
      { p with
        records :=
          { ring := (p.newRecord f :: p.records.ring).take 16, next := nextNumber p.records.next
            pendingRecord := some p.records.next }
        elements := { p.elements with episode := none }
        notices := (writeRecord f p).notices } := by
  unfold writeRecord
  exact raise_eq .record _

/-- Settles O45. -/
theorem recordWritten : Obligations.RecordWritten := by
  intro f p q
  refine ⟨rfl, rfl, rfl, ?_, fun r hr => ?_, nextNumber_bounds, rfl, rfl, fun m => raise_pending (by simp) _ m, writeRecord_eq f p⟩
  · change ((p.newRecord f :: p.records.ring).take 16).length = _
    rw [List.length_take, List.length_cons, Nat.min_comm]
  · change r ∈ ((p.newRecord f :: p.records.ring).take 16).tail at hr
    exact List.mem_of_mem_take hr

/-! ## TRIP where no order is placed (R58) -/

/-- A lockout is entered with its reason, and LOCKOUT is raised (R60). -/
theorem enterLockout_eq (r : LockoutReason) (p : Part) :
    enterLockout r p = { p with seq := p.seq.lockedOut r, notices := (enterLockout r p).notices } :=
  raise_eq .lockout _

theorem enterLockout_raised (r : LockoutReason) (p : Part) : RaisedSince p (enterLockout r p) [.lockout] :=
  RaisedSince.raise (l := []) ⟨fun _ hk => absurd hk (by simp), fun _ _ => id⟩ (by simp)

/-- TRIP is taken by the Sequencer and answered with its result (R58). -/
theorem exec_trip {k : LinkId} {m : Master} {s : State} (h : s.toPart.serves k m) :
    exec (.trip k) s =
      .next (s.withPart ((seqTripRequest m (s.toPart.found k m .trip)).1.answer k .trip
        ⟨.done, [byte (seqTripRequest m (s.toPart.found k m .trip)).2.code], false⟩)) :=
  exec_command_of_allowed h (r := .trip) rfl

/-- The reply that a link holds once its request is answered. -/
theorem answer_get (k : LinkId) (r : Request) (reply : Reply) (p : Part) :
    ((p.answer k r reply).links.get k).answer = some ⟨reply.frame r.code, reply.held⟩ := by
  change ((p.links.set k _).get k).answer = _
  rw [PerLink.get_set_self]

/-- Settles O41. -/
theorem tripRequestWithoutOrder : Obligations.TripRequestWithoutOrder := by
  intro k m s h p
  rw [exec_trip h]
  refine ⟨fun state => ?_, fun state => ?_, fun state opened => ?_⟩
  · have taken : seqTripRequest m p = (forceLockout .manualTrip p, .inProgress) := by
      simp only [seqTripRequest, state]
    rw [taken]
    rfl
  · have taken : seqTripRequest m p = (enterLockout .manualTrip p, .alreadyOpen) := by
      rcases state with state | state <;> simp only [seqTripRequest, state]
    rw [taken]
    refine ⟨_, rfl, rfl, rfl, rfl, rfl, rfl, fun x => (enterLockout_raised .manualTrip p).1 _ (by simp) x, ?_, rfl, rfl⟩
    exact answer_get _ _ _ _
  · have taken : seqTripRequest m p = (p, .alreadyOpen) := by
      rcases state with state | state <;> simp only [seqTripRequest, state, opened, if_true]
    rw [taken]
    rfl

/-! ## CLOSE (R66) -/

/-- CLOSE is taken by the Sequencer and answered, but not from CREW (R66, R181). -/
theorem exec_close {k : LinkId} {m : Master} {s : State} (h : s.toPart.serves k m) (hm : m ≠ .crew) :
    exec (.close k) s =
      .next (s.withPart ((askClose (s.toPart.found k m .close)).1.answer k .close
        (askClose (s.toPart.found k m .close)).2)) :=
  exec_command_of_allowed h (r := .close) (by
    cases m with
    | crew => exact absurd rfl hm
    | bay | control => rfl)

theorem askClose_refused {p : Part} {why : Why} (h : closeRequestRefusal p = some why) :
    askClose p = (p, Reply.wrong why) := by
  unfold askClose
  rw [h]

/-- No condition of R66 refuses the request. -/
theorem closeRequestRefusal_eq_none {p : Part} (state : p.seq.state = .lockout) (hotLine : p.hasBlock .hotLine = false)
    (mechanism : p.hasBlock .mechanism = false) (good : p.intake.state = .good) (energy : p.mech.energyHigh = true) :
    closeRequestRefusal p = none := by
  simp [closeRequestRefusal, state, hotLine, mechanism, good, energy]

/-- The request passes R66, and Mechanism refuses the order. -/
theorem askClose_of_mechanism_refusal {p : Part} {why : Why} (request : closeRequestRefusal p = none)
    (h : closeRefusal p = some why) : askClose p = (closeEnded p, Reply.wrong why) := by
  unfold askClose
  rw [request]
  simp only [placeClose_refused _ _ h]

theorem askClose_accepted {p : Part} (request : closeRequestRefusal p = none) (h : closeRefusal p = none) :
    askClose p =
      ({ p with
          mech :=
            { p.mech with
              order := .close, placer := some .sequencer, orderTimer := some (p.clock + 300), closeOutput := true
              travelTimer := none }
          elements := { p.elements with closeKind := .manual }
          seq := { p.seq with state := .closing, shotsUsed := 0, purpose := .manual } }, Reply.done []) := by
  unfold askClose
  rw [request]
  simp only [placeClose_accepted _ _ h]
  rfl

/-- Settles O42: R66's conditions in their order, then Mechanism's. -/
theorem closeRequestTaken : Obligations.CloseRequestTaken := by
  intro k m s h hm p
  rw [exec_close h hm]
  have refused : ∀ why : Why, closeRequestRefusal p = some why →
      Host.Outcome.next (s.withPart ((askClose p).1.answer k .close (askClose p).2)) =
        (.next (s.withPart (p.answer k .close ⟨.wrongState, [byte why.code], false⟩)) : Host.Outcome State Fault Refusal) := by
    intro why hw
    rw [askClose_refused hw]
    rfl
  refine ⟨fun state hotLine mechanism good energy order opened => ?_, fun state => refused .huntRunning ?_,
    fun held state => refused .notLockout ?_, fun state hotLine => refused .hotLine ?_,
    fun state hotLine mechanism => refused .mechanismBlocked ?_,
    fun state hotLine mechanism lost => refused .measureLost ?_,
    fun state hotLine mechanism good energy => refused .energyLow ?_,
    fun state hotLine mechanism good energy notReady => ?_⟩
  · rw [askClose_accepted (closeRequestRefusal_eq_none state hotLine mechanism good energy)
      (closeRefusal_eq_none_iff.mpr ⟨order, opened, energy, hotLine, mechanism⟩)]
    rfl
  · simp [closeRequestRefusal, state]
  · simp [closeRequestRefusal, held, state]
  · simp [closeRequestRefusal, state, hotLine]
  · simp [closeRequestRefusal, state, hotLine, mechanism]
  · simp [closeRequestRefusal, state, hotLine, mechanism, lost]
  · simp [closeRequestRefusal, state, hotLine, mechanism, good, energy]
  · have request := closeRequestRefusal_eq_none state hotLine mechanism good energy
    by_cases order : p.mech.order = .none
    · have notOpen : p.position ≠ .opened := notReady.resolve_left (not_not.mpr order)
      rw [askClose_of_mechanism_refusal (why := .notOpen) request (by simp [closeRefusal, order, notOpen]), if_pos order]
      rfl
    · rw [askClose_of_mechanism_refusal (why := .orderInProgress) request (by simp [closeRefusal, order]), if_neg order]
      rfl

end Sys2Proof.Machine
end SequencerMoves

/-! SUPPORT. Failures of the mechanism and the spring: O36 to O38. -/
section MechanismFailures
namespace Sys2Proof.Machine

/-! ## A placement and a position failure, as the Sequencer takes them (R67, R71) -/

/-- A placement does nothing to a Sequencer that neither waits for a reclose nor has lent the breaker (R67). -/
theorem seqBlockPlaced_of_not_waiting {p : Part} (k : BlockKind) (deadTime : p.seq.state ≠ .deadTime)
    (closeWait : p.seq.state ≠ .closeWait) (huntHeld : p.seq.state ≠ .huntHeld) : seqBlockPlaced k p = p := by
  unfold seqBlockPlaced
  split
  iterate 3 contradiction
  rfl

theorem seqBlockPlaced_of_waiting {p : Part} (k : BlockKind) (h : p.seq.state = .deadTime ∨ p.seq.state = .closeWait) :
    seqBlockPlaced k p = enterLockout .blocked p := by
  rcases h with h | h <;> simp only [seqBlockPlaced, h]

/-- A placement never lends the breaker to the Hunt. -/
theorem seqBlockPlaced_not_held {p : Part} (k : BlockKind) (h : p.seq.state ≠ .huntHeld) :
    (seqBlockPlaced k p).seq.state ≠ .huntHeld := by
  by_cases waiting : p.seq.state = .deadTime ∨ p.seq.state = .closeWait
  · rw [seqBlockPlaced_of_waiting k waiting]
    exact SeqState.noConfusion
  · rw [not_or] at waiting
    rwa [seqBlockPlaced_of_not_waiting k waiting.1 waiting.2 h]

/-- With no hunt running and no hand-back pending a MECHANISM placement is the Sequencer's and the list's alone (R85). -/
theorem placeMechanism_of_no_hunt {p : Part} (running : p.hunt.state.running = false)
    (pending : p.hunt.handBackPending = false) :
    placeMechanism p =
      if p.hasBlock .mechanism then p else joinPart .mechanism (seqBlockPlaced .mechanism p) := by
  have untouched : huntMechanismPlaced (seqBlockPlaced .mechanism p) = seqBlockPlaced .mechanism p := by
    simp [huntMechanismPlaced, handBackPendingDone, running, pending]
  unfold placeMechanism
  rw [untouched]

/-- What such a placement leaves as it was. -/
theorem placeMechanism_of_no_hunt_frame {p : Part} (running : p.hunt.state.running = false)
    (pending : p.hunt.handBackPending = false) :
    (placeMechanism p).mech = p.mech ∧ (placeMechanism p).elements = p.elements ∧
      (placeMechanism p).records = p.records := by
  rw [placeMechanism_of_no_hunt running pending]
  split <;> simp

theorem placeMechanism_not_held {p : Part} (running : p.hunt.state.running = false)
    (pending : p.hunt.handBackPending = false) (h : p.seq.state ≠ .huntHeld) :
    (placeMechanism p).seq.state ≠ .huntHeld := by
  rw [placeMechanism_of_no_hunt running pending]
  split
  · exact h
  · simpa using seqBlockPlaced_not_held .mechanism h

/-- A Sequencer with an order in progress takes a MECHANISM placement as nothing (R67). -/
theorem placeMechanism_seq_of_ordered {p : Part} (running : p.hunt.state.running = false)
    (pending : p.hunt.handBackPending = false) (h : p.seq.state = .tripping ∨ p.seq.state = .closing) :
    (placeMechanism p).seq = p.seq := by
  have same : seqBlockPlaced .mechanism p = p := by
    rcases h with h | h <;> exact seqBlockPlaced_of_not_waiting _ (by simp [h]) (by simp [h]) (by simp [h])
  rw [placeMechanism_of_no_hunt running pending, same]
  split <;> simp

theorem seqPositionFailure_failed {p : Part} (h : p.seq.state ≠ .huntHeld) : (seqPositionFailure p).seq.state = .failed := by
  unfold seqPositionFailure
  split
  · contradiction
  · assumption
  · rfl

/-- A part handed over in FAILED is FAILED, and takes a position failure as nothing more (R71). -/
theorem HandedToFailure.positionFailure {h : Hunt} {p q : Part} (handed : HandedToFailure h p q) :
    seqPositionFailure (raise .mechanismFail q) = raise .mechanismFail q := by
  have failed : (raise .mechanismFail q).seq.state = .failed := by
    rw [(raise_frame _ _).2.2.2.2.2.2.1, handed.1]
    rfl
  simp only [seqPositionFailure, failed]

/-! ## The travel and discrepancy timers (R43, R44) -/

/-- Settles O36: the three cases of the hunt, after the expiry has been reduced to `positionFailure`. -/
theorem positionFailureDeclared : Obligations.PositionFailureDeclared := by
  intro c e s timer mech base
  have taken : exec c s = .next (s.withPart (positionFailure base)) := by
    rcases timer with ⟨rfl, timer⟩ | ⟨rfl, timer⟩
    · change Host.Outcome.next (s.withPart (expired s.mech.travelTimer travelEnded s.toPart)) = _
      rw [expired_some timer]
      rfl
    · change Host.Outcome.next (s.withPart (expired s.mech.discrepancyTimer discrepancyEnded s.toPart)) = _
      rw [expired_some timer]
      rfl
  rw [taken]
  refine ⟨fun held running pending => ?_, fun hunted block => ?_, fun held running pending block hunt => ?_⟩
  · obtain ⟨keptMech, keptElements, keptRecords⟩ := placeMechanism_of_no_hunt_frame (p := base) running pending
    have notHeld : (raise .mechanismFail (placeMechanism base)).seq.state ≠ .huntHeld := by
      simpa using placeMechanism_not_held (p := base) running pending held
    refine ⟨_, rfl, ?_, fun m => ?_, seqPositionFailure_failed notHeld, ?_, ?_, ?_, ?_, ?_, ?_, ?_, ?_⟩
    · simpa [positionFailure, Part.hasBlock] using placeMechanism_hasBlock base
    · simpa [positionFailure, Part.pendingFor, State.withPart] using
        raise_pending (k := .mechanismFail) (by simp) (placeMechanism base) m
    all_goals simp [State.withPart, positionFailure, keptMech, keptElements, keptRecords, base]
  · obtain ⟨handed, huntEnd⟩ := placeMechanism_running (p := base) hunted.held hunted.running block
    refine ⟨placeMechanism base, ?_, handed, huntEnd⟩
    unfold positionFailure
    rw [handed.positionFailure]
  · have handed := placeMechanism_pending (p := base) held running block pending hunt
    refine ⟨placeMechanism base, ?_, handed⟩
    unfold positionFailure
    rw [handed.positionFailure]

/-! ## The maximum times of orders (R48, R50) -/

/-- The record that waits for an outcome takes it (R156). -/
theorem completeRecord_some {p : Part} {n : Nat} (o : OpeningOutcome) (h : p.records.pendingRecord = some n) :
    completeRecord o p =
      { p with
        records :=
          { p.records with
            ring := p.records.ring.map fun r => if r.number = n then { r with outcome := o } else r
            pendingRecord := none } } := by
  unfold completeRecord
  rw [h]

theorem Mechanism.timerOf_of_order {m : Mechanism} {o : Order} {e : Nat} (order : m.order = o)
    (timer : m.orderTimer = some e) : m.timerOf o = some e := by
  unfold Mechanism.timerOf
  rw [if_pos order, timer]

/-- The trip order's maximum time, at its clock (R48). -/
theorem exec_tripOrderTimeout {s : State} {e : Nat} (order : s.mech.order = .trip) (timer : s.mech.orderTimer = some e) :
    exec .tripOrderTimeout s =
      .next (s.withPart (tripFailTaken s.mech.placer (completeRecord .tripFail
        (raise .mechanismFail (placeMechanism (endOrder (s.toPart.reach e))))))) := by
  change Host.Outcome.next (s.withPart (expired (s.mech.timerOf .trip) tripTimedOut s.toPart)) = _
  rw [expired_some (Mechanism.timerOf_of_order order timer)]
  unfold tripTimedOut
  rw [if_pos (by exact order)]
  rfl

/-- The close order's maximum time, at its clock (R50). -/
theorem exec_closeOrderTimeout {s : State} {e : Nat} (order : s.mech.order = .close) (timer : s.mech.orderTimer = some e) :
    exec .closeOrderTimeout s =
      .next (s.withPart (closeFailTaken s.mech.placer (closeEnded
        (raise .mechanismFail (placeMechanism (endOrder (s.toPart.reach e))))))) := by
  change Host.Outcome.next (s.withPart (expired (s.mech.timerOf .close) closeTimedOut s.toPart)) = _
  rw [expired_some (Mechanism.timerOf_of_order order timer)]
  unfold closeTimedOut
  rw [if_pos (by exact order)]
  rfl

theorem tripFailTaken_hunt (p : Part) : tripFailTaken (some .hunt) p = p := rfl

theorem closeFailTaken_hunt (p : Part) : closeFailTaken (some .hunt) p = p := rfl

theorem handedToFailure_mode {h : Hunt} {p q : Part} (handed : HandedToFailure h p q) : q.elements.mode = .normal := by
  rw [handed.1]

/-- Settles O37: the Sequencer's orders, and the Hunt's through the MECHANISM placement. -/
theorem orderMaximumTimes : Obligations.OrderMaximumTimes := by
  intro e s timer travel tripFailed failed base
  have ended : endOrder (s.toPart.reach e) = base := rfl
  refine ⟨fun placer running pending => ?_, fun placer held block => ?_⟩
  · obtain ⟨keptMech, keptElements, keptRecords⟩ := placeMechanism_of_no_hunt_frame (p := base) running pending
    have listed : ∀ p : Part, p.entries = (placeMechanism base).entries → p.hasBlock .mechanism = true := fun p h => by
      simpa [Part.hasBlock, h] using placeMechanism_hasBlock base
    have told : ∀ p : Part, p.notices = (raise .mechanismFail (placeMechanism base)).notices →
        ∀ m : Master, p.pendingFor m .mechanismFail = true := fun p h m => by
      rw [pendingFor_congr h]
      exact raise_pending (by simp) _ m
    refine ⟨fun order state n record => ?_, fun order state => ?_⟩
    · have kept : (placeMechanism base).seq = s.seq :=
        placeMechanism_seq_of_ordered (p := base) running pending (.inl state)
      have taken : exec .tripOrderTimeout s = .next (s.withPart (enterFailed
          { raise .mechanismFail (placeMechanism base) with
            records := { s.records with ring := tripFailed n, pendingRecord := none } })) := by
        rw [exec_tripOrderTimeout order timer, ended, placer, completeRecord_some (n := n) .tripFail (by simp [keptRecords, base, record])]
        simp only [tripFailTaken, seqTripFailed, raise_frame, kept, state, if_true, keptRecords]
        rfl
      refine ⟨_, taken, ⟨?_, ?_, ?_, ?_, ?_, listed _ (by simp [State.withPart]), told _ (by simp [State.withPart]), rfl,
        ?_, ?_, ?_, ?_, ?_, ?_⟩, ?_, ?_, ?_⟩
      all_goals simp [State.withPart, keptMech, keptElements, base]
    · have kept : (placeMechanism base).seq = s.seq :=
        placeMechanism_seq_of_ordered (p := base) running pending (.inr state)
      have taken : exec .closeOrderTimeout s = .next (s.withPart (enterFailed
          (closeEnded (raise .mechanismFail (placeMechanism base))))) := by
        rw [exec_closeOrderTimeout order timer, ended, placer]
        simp only [closeFailTaken, seqCloseFailed, closeEnded, raise_frame, kept, state, if_true]
      refine ⟨_, taken, ⟨?_, ?_, ?_, ?_, ?_, listed _ (by simp [State.withPart, closeEnded]),
        told _ (by simp [State.withPart, closeEnded]), rfl, ?_, ?_, ?_, ?_, ?_, ?_⟩, ?_, ?_⟩
      all_goals simp [State.withPart, keptMech, keptElements, keptRecords, base, closeEnded]
  · refine ⟨fun n order record hunted => ?_, fun order running => ?_⟩
    · have handed : ∃ h : Hunt, HandedToFailure h base (placeMechanism base) ∧
          (s.hunt.state.running = true → h = s.hunt.abandonedBy .mechanism none s.hunt.handBackPending ∧
            ∀ m : Master, (placeMechanism base).pendingFor m .huntEnd = true) ∧
          (s.hunt.state.running = false → h = { s.hunt with handBackPending := false }) := by
        cases running : s.hunt.state.running with
        | true =>
          obtain ⟨handed, huntEnd⟩ := placeMechanism_running (p := base) held running block
          exact ⟨_, handed, fun _ => ⟨rfl, huntEnd⟩, nofun⟩
        | false =>
          obtain ⟨pending, hunt⟩ := hunted.resolve_left (by simp [running])
          exact ⟨_, placeMechanism_pending (p := base) held running block pending hunt, nofun, fun _ => rfl⟩
      obtain ⟨h, handed, whileRunning, whilePending⟩ := handed
      have keptRecords : (placeMechanism base).records = s.records := by
        rw [handed.1]
      refine ⟨placeMechanism base, ?_, fun running => ?_, fun running => ?_⟩
      · rw [exec_tripOrderTimeout order timer, ended, placer,
          completeRecord_some (n := n) .tripFail (by simp [keptRecords, record]), tripFailTaken_hunt]
        simp only [raise_frame, keptRecords]
        rfl
      · obtain ⟨rfl, huntEnd⟩ := whileRunning running
        exact ⟨handed, huntEnd⟩
      · obtain rfl := whilePending running
        exact handed
    · obtain ⟨handed, huntEnd⟩ := placeMechanism_running (p := base) held running block
      refine ⟨placeMechanism base, ?_, handed, huntEnd⟩
      rw [exec_closeOrderTimeout order timer, ended, placer, closeFailTaken_hunt, closeEnded]
      simp only [raise_frame, ← handedToFailure_mode handed]

/-! ## Energy-ready (R45) -/

theorem exec_energyReadyChange {high : Bool} {s : State} (changes : s.mech.energyHigh = !high) :
    exec (.energyReadyChange high) s =
      .next (s.withPart (if s.started then
          huntConditionsChanged (seqConditionsChanged { s.toPart with mech := { s.mech with energyHigh := high } })
        else { s.toPart with mech := { s.mech with energyHigh := high } })) := by
  change Host.Outcome.next (s.withPart (energyChanged high s.toPart)) = _
  unfold energyChanged
  rw [if_neg (by cases high <;> simp [changes])]

theorem seqConditionsChanged_of_not {p : Part} (h : p.seq.state ≠ .closeWait ∨ p.recloseConditions = false) :
    seqConditionsChanged p = p := by
  unfold seqConditionsChanged
  rcases h with h | h <;> simp [h]

theorem huntConditionsChanged_of_not {p : Part} (h : p.hunt.closeWaitTimer = none ∨ p.closeConditions = false) :
    huntConditionsChanged p = p := by
  unfold huntConditionsChanged
  rcases h with h | h <;> simp [h]

/-- The Hunt's close that waits is placed when its conditions are met (R137). -/
theorem huntConditionsChanged_of_waiting {p : Part} (waits : p.hunt.closeWaitTimer ≠ none) (h : p.closeConditions = true) :
    huntConditionsChanged p = placeDueClose p := by
  unfold huntConditionsChanged
  rw [if_pos (by simp [h, Option.isSome_iff_ne_none, waits])]

theorem closeConditions_iff {p : Part} :
    p.closeConditions = true ↔ p.mech.energyHigh = true ∧ (p.hunt.closeDue = .test → p.intake.sourceLive = true) := by
  simp only [Part.closeConditions, Bool.and_eq_true, Bool.or_eq_true, decide_eq_true_eq, ne_eq, Decidable.imp_iff_not_or]

/-- The Sequencer's close that waits is placed when its conditions are met (R62, R63). -/
theorem seqConditionsChanged_accepted {p : Part} {k : Nat} (state : p.seq.state = .closeWait) (entries : p.entries = [])
    (live : p.intake.sourceLive = true) (energy : p.mech.energyHigh = true) (pending : p.seq.pendingShot = some k)
    (shots : k ≤ p.settings.shots.getD 0) (order : p.mech.order = .none) (opened : p.position = .opened) :
    seqConditionsChanged p =
      { p with
        mech :=
          { p.mech with
            order := .close, placer := some .sequencer, orderTimer := some (p.clock + 300), closeOutput := true
            travelTimer := none }
        elements := { p.elements with closeKind := .automatic }
        seq :=
          { p.seq with
            state := .closing, shotsUsed := k, pendingShot := none, purpose := .automatic, deadTimer := none
            closeWaitTimer := none } } := by
  have conditions : p.recloseConditions = true := recloseConditions_iff.mpr ⟨entries, live, energy⟩
  unfold seqConditionsChanged
  rw [if_pos (by simp [state, conditions]), automaticClose_accepted pending shots
    (closeRefusal_of_recloseConditions entries energy order opened)]

/-- Settles O38: nobody waits, the Sequencer waits, the Hunt waits. -/
theorem energyReadyTaken : Obligations.EnergyReadyTaken := by
  intro high s changes changed
  rw [exec_energyReadyChange changes]
  refine ⟨fun unused => ?_, fun k hh started state entries live pending shots order opened noWait => ?_,
    fun hh started hunted waits => ⟨fun due notNone isDue live => ?_, fun isDue dead => ?_⟩⟩
  · split
    next started =>
      have seqIdle : seqConditionsChanged changed = changed := by
        apply seqConditionsChanged_of_not
        rcases unused with low | off | idle
        · exact .inr (by simp [Part.recloseConditions, changed, low])
        · rw [off] at started
          contradiction
        · exact .inl idle.1
      have huntIdle : huntConditionsChanged changed = changed := by
        apply huntConditionsChanged_of_not
        rcases unused with low | off | idle
        · exact .inr (by simp [Part.closeConditions, changed, low])
        · rw [off] at started
          contradiction
        · exact .inl idle.2
      rw [seqIdle, huntIdle]
    next => rfl
  · subst hh
    rw [if_pos started]
    change Host.Outcome.next (s.withPart (huntConditionsChanged (seqConditionsChanged changed))) = _
    rw [seqConditionsChanged_accepted (p := changed) state entries live rfl pending shots order opened,
      huntConditionsChanged_of_not (.inl (by exact noWait))]
  all_goals
    subst hh
    rw [if_pos started, seqConditionsChanged_of_not (.inl (by simp [hunted.held]))]
  · refine ⟨_, rfl, ?_⟩
    rw [huntConditionsChanged_of_waiting (p := changed) waits
      (closeConditions_iff.mpr ⟨rfl, fun h => live (isDue.symm.trans h)⟩)]
    exact placeDueClose_spec isDue notNone hunted.sound hunted.own
  · rw [huntConditionsChanged_of_not (.inr (by simp [Part.closeConditions, isDue, dead]))]

end Sys2Proof.Machine
end MechanismFailures

/-! SUPPORT. Trip orders of the Sequencer, and what OPEN and CLOSED complete: O40, O34 and O33. -/
section SequencerTrips
namespace Sys2Proof.Machine

/-! ## A trip order of the Sequencer's (R55, R47, R51, R153) -/

/-- What a trip of the Sequencer's asks of its record (R55, R152). -/
def LastTrip.fields (last : LastTrip) (shot : Nat) : TripFields :=
  ⟨last.origin, last.causes, last.requester, last.highsetLanes, last.sotfLanes, shot⟩

/-- The part after a trip of the Sequencer's with the breaker not OPEN, but for the notices; a close order in progress has
ended trip-free. -/
def Part.seqTripPlaced (last : LastTrip) (forced : Option Forced) (p : Part) : Part :=
  { p with
    mech :=
      { p.mech with
        order := .trip, placer := some .sequencer, orderTimer := some (p.clock + 200), tripOutput := true
        closeOutput := decide (p.mech.order ≠ .close) && p.mech.closeOutput, travelTimer := none }
    seq :=
      { p.seq with
        state := if p.seq.state = .failed then .failed else .tripping
        purpose := if p.mech.order = .close then .none else p.seq.purpose
        lastTrip := some last, forced := forced, deadTimer := none, closeWaitTimer := none, reclaimTimer := none }
    elements :=
      { p.elements with
        episode := none
        closeKind := if p.mech.order = .close then .none else p.elements.closeKind
        mode := if p.mech.order = .close then .normal else p.elements.mode }
    records :=
      { ring := (p.newRecord (last.fields p.seq.shotsUsed) :: p.records.ring).take 16, next := nextNumber p.records.next
        pendingRecord := some p.records.next } }

/-- The acts of an accepted trip order raise TRIP and RECORD. -/
theorem tripAccepted_raised (last : LastTrip) (forced : Option Forced) (p : Part) :
    RaisedSince p (tripAccepted last forced p) [.trip, .record] :=
  ((tripRaised (last.fields p.seq.shotsUsed) (noteTrip last forced p)).congr rfl).of fun _ _ => id

/-- The same of a part that has moved to its trip order in everything but the notices. -/
theorem tripAccepted_notices_raised (last : LastTrip) (forced : Option Forced) {p q : Part} (h : q.notices = p.notices) :
    RaisedSince p { p with notices := (tripAccepted last forced q).notices } [.trip, .record] :=
  ((tripAccepted_raised last forced q).congr rfl).mono fun m n hn => (pendingFor_congr h m n).trans hn

/-- The acts of an accepted trip order, but for the notices (R55, R153). -/
theorem tripAccepted_eq (last : LastTrip) (forced : Option Forced) (p : Part) :
    tripAccepted last forced p =
      { p with
        seq :=
          { p.seq with
            state := if p.seq.state = .failed then .failed else .tripping
            lastTrip := some last, forced := forced, deadTimer := none, closeWaitTimer := none, reclaimTimer := none }
        elements := { p.elements with episode := none }
        records :=
          { ring := (p.newRecord (last.fields p.seq.shotsUsed) :: p.records.ring).take 16
            next := nextNumber p.records.next, pendingRecord := some p.records.next }
        notices := (tripAccepted last forced p).notices } := by
  unfold tripAccepted
  rw [raise_eq .trip, writeRecord_eq]
  rfl

/-- A close order of the Sequencer's made trip-free (R51, R55). -/
theorem tripFree_sequencer {p : Part} (placer : p.mech.placer = some .sequencer) :
    tripFree p =
      { p with
        mech := (endOrder p).mech
        elements := { p.elements with closeKind := .none, mode := .normal }
        seq := { p.seq with purpose := .none } } := by
  unfold tripFree
  rw [placer]
  rfl

theorem beginTrip_of_not_opened (by' : Placer) {p : Part} (notOpen : p.position ≠ .opened) :
    beginTrip by' p =
      ({ p with
          mech :=
            { p.mech with
              order := .trip, placer := some by', orderTimer := some (p.clock + 200), tripOutput := true
              travelTimer := none } }, .accepted) := if_neg notOpen

/-- A trip of the Sequencer's with the breaker not OPEN is placed. -/
theorem seqTrip_placed (last : LastTrip) (forced : Option Forced) {p : Part} (notOpen : p.position ≠ .opened)
    (order : p.mech.order = .none ∨ (p.mech.order = .close ∧ p.mech.placer = some .sequencer)) :
    seqTrip last forced p =
        ({ p.seqTripPlaced last forced with notices := (seqTrip last forced p).1.notices }, .accepted) ∧
      RaisedSince p (seqTrip last forced p).1 [.trip, .record] := by
  rcases order with order | ⟨order, placer⟩
  · have placed : seqTrip last forced p =
        (tripAccepted last forced { p with mech := (p.seqTripPlaced last forced).mech }, .accepted) := by
      simp only [seqTrip, placeTrip, order, beginTrip_of_not_opened _ notOpen]
      simp [Part.seqTripPlaced, order]
    rw [placed]
    refine ⟨Prod.ext ((tripAccepted_eq _ _ _).trans ?_) rfl, tripAccepted_raised last forced _⟩
    simp only [Part.seqTripPlaced, order, reduceCtorEq, if_false]
    rfl
  · have notOpen' : (tripFree p).position ≠ .opened := by rwa [tripFree_position]
    have placed : seqTrip last forced p = (tripAccepted last forced
        { p with
          mech := (p.seqTripPlaced last forced).mech
          elements := { p.elements with closeKind := .none, mode := .normal }
          seq := { p.seq with purpose := .none } }, .accepted) := by
      simp only [seqTrip, placeTrip, order, beginTrip_of_not_opened _ notOpen']
      rw [tripFree_sequencer placer]
      simp [Part.seqTripPlaced, order, endOrder]
    rw [placed]
    refine ⟨Prod.ext ((tripAccepted_eq _ _ _).trans ?_) rfl, tripAccepted_raised last forced _⟩
    simp only [Part.seqTripPlaced, order, if_true]
    rfl

/-- A trip of the Sequencer's in CLOSING with the breaker still OPEN ends the close trip-free and is itself OPENED at once; a
forced lockout follows (R47, R51, R55, R59). -/
theorem seqTrip_opened (last : LastTrip) (f : Forced) {p : Part} (opened : p.position = .opened)
    (order : p.mech.order = .close) (placer : p.mech.placer = some .sequencer) (state : p.seq.state = .closing) :
    seqTrip last (some f) p =
        ({ p with
            mech :=
              { p.mech with
                order := .none, placer := none, orderTimer := none, tripOutput := false, closeOutput := false }
            elements := { p.elements with episode := none, closeKind := .none, mode := .normal }
            seq := { p.seq with lastTrip := some last, openingMoment := some p.clock }.lockedOut f.reason
            records :=
              { ring :=
                  ((p.newRecord (last.fields p.seq.shotsUsed) :: p.records.ring).take 16).map fun r =>
                    if r.number = p.records.next then { r with outcome := .opened } else r
                next := nextNumber p.records.next, pendingRecord := none }
            notices := (seqTrip last (some f) p).1.notices }, .alreadyOpen) ∧
      RaisedSince p (seqTrip last (some f) p).1 [.lockout, .trip, .record] := by
  have opened' : (tripFree p).position = .opened := by rwa [tripFree_position]
  have placed : seqTrip last (some f) p =
      (seqOpened (completeRecord .opened (tripAccepted last (some f) (tripFree p))), .alreadyOpen) := by
    simp only [seqTrip, placeTrip, order, beginTrip, if_pos opened']
  have accepted := tripAccepted_eq last (some f) (tripFree p)
  have raised := (tripAccepted_raised last (some f) (tripFree p)).mono
    fun m n h => (pendingFor_congr (tripFree_frame p).2.2.2.2.2.2.2.2.2.1 m n).trans h
  generalize tripAccepted last (some f) (tripFree p) = q at accepted raised placed
  have record : q.records.pendingRecord = some p.records.next := by
    rw [accepted]
    simp
  have followed : seqOpened (completeRecord .opened q) =
      enterLockout f.reason { completeRecord .opened q with seq := { q.seq with openingMoment := some q.clock } } := by
    unfold seqOpened chooseShot
    rw [completeRecord_some .opened record, accepted, tripFree_sequencer placer]
    simp [state]
  rw [placed, followed]
  refine ⟨Prod.ext ((enterLockout_eq _ _).trans ?_) rfl, ?_⟩
  · rw [completeRecord_some .opened record, accepted, tripFree_sequencer placer]
    simp only [endOrder, opened, Sequencer.lockedOut, Sequencer.rests, reduceCtorEq, if_false]
    rfl
  · have locked := enterLockout_raised f.reason
      { completeRecord .opened q with seq := { q.seq with openingMoment := some q.clock } }
    have kept : ∀ (m : Master) (n : NoticeKind), q.pendingFor m n = true → Part.pendingFor
        { completeRecord .opened q with seq := { q.seq with openingMoment := some q.clock } } m n = true := fun m n h =>
      (pendingFor_congr (completeRecord_frame .opened q).2.2.2.2.2.2.2.2.2.2.2.1 m n).trans h
    refine ⟨fun n hn m => ?_, fun m n hn => locked.2 m n (kept m n (raised.2 m n hn))⟩
    rcases List.mem_cons.1 hn with rfl | hn
    · exact locked.1 _ (by simp) m
    · exact locked.2 m n (kept m n (raised.1 n hn m))

/-! ## Abandonments that do not depend on a failure noted (R146, R147) -/

/-- An abandonment with the breaker not OPEN goes on to the Hunt's trip (R146, item 7). -/
theorem abandon_of_not_opened {reason : HuntReason} (detail : Option HuntDetail) (c : TripCall) {p : Part}
    (other : reason ≠ .mechanism) (notOpen : p.position ≠ .opened) :
    abandon reason detail c p =
      abandonTrip c
        { p with
          hunt := p.hunt.abandonedBy reason detail p.hunt.handBackPending, entries := p.entriesLeft
          notices := (abandonStart reason detail p).notices } := by
  unfold abandon
  simp only [if_neg other]
  rw [(abandonStart_left reason detail p).1, if_neg]
  intro opened
  rw [Bool.and_eq_true, decide_eq_true_eq] at opened
  exact notOpen opened.1

/-- A trip in progress serves an abandonment, which leaves it alone (R147). -/
theorem abandon_waits {reason : HuntReason} (detail : Option HuntDetail) (c : TripCall) {p : Part}
    (other : reason ≠ .mechanism) (notOpen : p.position ≠ .opened) (order : p.mech.order = .trip) :
    abandon reason detail c p =
      { p with
        hunt := p.hunt.abandonedBy reason detail true, entries := p.entriesLeft
        notices := (abandonStart reason detail p).notices } := by
  rw [abandon_of_not_opened detail c other notOpen]
  simp only [abandonTrip, huntTrip, placeTrip, order]
  rfl

/-- A trip of the Hunt's with the breaker not OPEN and no order in progress, with the record it writes (R143, R153). -/
theorem huntTrip_eq (c : TripCall) {p : Part} (notOpen : p.position ≠ .opened) (order : p.mech.order = .none) :
    huntTrip c p =
      ({ p with
          mech :=
            { p.mech with
              order := .trip, placer := some .hunt, orderTimer := some (p.clock + 200), tripOutput := true
              travelTimer := none }
          elements := { p.elements with episode := none }
          records :=
            { ring :=
                (p.newRecord ⟨.hunt, c.causes, c.requester, c.highsetLanes, c.sotfLanes, 0⟩ :: p.records.ring).take 16
              next := nextNumber p.records.next, pendingRecord := some p.records.next }
          notices := (huntTrip c p).1.notices }, .accepted) ∧
      RaisedSince p (huntTrip c p).1 [.trip, .record] := by
  have placed : huntTrip c p =
      (raise .trip (writeRecord ⟨.hunt, c.causes, c.requester, c.highsetLanes, c.sotfLanes, 0⟩ (beginTrip .hunt p).1),
        .accepted) := by
    simp only [huntTrip, placeTrip, order, beginTrip_of_not_opened _ notOpen, reduceCtorEq, if_false]
  rw [placed, beginTrip_of_not_opened _ notOpen]
  refine ⟨Prod.ext ?_ rfl, (tripRaised _ _).mono fun _ _ h => h⟩
  rw [raise_eq .trip, writeRecord_eq]
  rfl

theorem abandonTrip_of_accepted {c : TripCall} {p : Part}
    (h : (huntTrip c { p with hunt := { p.hunt with handBackPending := true } }).2 = .accepted) :
    abandonTrip c p = (huntTrip c { p with hunt := { p.hunt with handBackPending := true } }).1 := by
  unfold abandonTrip
  split
  next q answered =>
    rw [answered] at h
    exact absurd h (by simp)
  next q answer _ answered => rw [answered]

/-- An abandonment with the breaker not OPEN and no order in progress leaves the Hunt's trip in progress (R146, item 7). -/
theorem abandon_trips {reason : HuntReason} (detail : Option HuntDetail) (c : TripCall) {p : Part}
    (other : reason ≠ .mechanism) (notOpen : p.position ≠ .opened) (order : p.mech.order = .none) :
    abandon reason detail c p =
      (huntTrip c
        { p with
          hunt := p.hunt.abandonedBy reason detail true, entries := p.entriesLeft
          notices := (abandonStart reason detail p).notices }).1 := by
  rw [abandon_of_not_opened detail c other notOpen]
  refine abandonTrip_of_accepted ?_
  rw [(huntTrip_eq c (by exact notOpen) (by exact order)).1]

/-- HUNT is not in the list that an abandonment leaves. -/
theorem hasBlock_hunt_of_entriesLeft {p q : Part} (h : q.entries = p.entriesLeft) : q.hasBlock .hunt = false := by
  simp [Part.hasBlock, h, Part.entriesLeft]

/-! ## TRIP (R58) -/

/-- A TRIP request in a state from which a trip is placed (R58). -/
theorem seqTripRequest_placed {m : Master} {p : Part} (state : p.seq.state ∈ [.closed, .reclaim, .lockout, .failed, .closing])
    (order : p.mech.order ≠ .trip) (notOpen : p.position ≠ .opened) :
    seqTripRequest m p = ((seqTrip (manualTripOf m) (some .manualTrip) p).1, .placed) := by
  simp only [List.mem_cons, List.not_mem_nil, or_false] at state
  rcases state with state | state | state | state | state <;>
    simp only [seqTripRequest, state, if_neg order, if_neg notOpen]

/-- Settles O40, state by state of R58. -/
theorem tripRequestPlacesTrip : Obligations.TripRequestPlacesTrip := by
  intro k m s h p record next answered lastTrip kept abandoned ended
  rw [exec_trip h]
  refine ⟨fun state order placer notOpen => ?_, fun state order placer opened => ?_, fun state order notOpen => ?_,
    fun state running => ?_, fun hunted => ?_,
    fun state running => ⟨fun opened order sound => ?_, fun order notOpen => ?_, fun order notOpen => ?_⟩⟩
  · have order' : p.mech.order = .none ∨ (p.mech.order = .close ∧ p.mech.placer = some .sequencer) := by
      cases ho : p.mech.order with
      | none => exact .inl rfl
      | trip => exact absurd ho order
      | close => exact .inr ⟨rfl, placer ho⟩
    obtain ⟨placed, raised⟩ := seqTrip_placed (manualTripOf m) (some .manualTrip) notOpen order'
    rw [seqTripRequest_placed state order notOpen]
    have part := congrArg Prod.fst placed
    generalize (seqTrip (manualTripOf m) (some .manualTrip) p).1 = q at part raised
    refine ⟨_, rfl, ?_, ?_, ?_, ?_, fun x => ⟨raised.1 _ (by simp) x, raised.1 _ (by simp) x⟩, answer_get _ _ _ _, ?_, ?_,
      ?_, ?_, ?_, ?_⟩ <;> (rw [part]; rfl)
  · obtain ⟨placed, raised⟩ := seqTrip_opened (manualTripOf m) .manualTrip opened order placer state
    have taken : seqTripRequest m p = ((seqTrip (manualTripOf m) (some .manualTrip) p).1, .placed) := by
      simp only [seqTripRequest, state]
    rw [taken]
    have part := congrArg Prod.fst placed
    generalize (seqTrip (manualTripOf m) (some .manualTrip) p).1 = q at part raised
    refine ⟨_, rfl, ?_, ?_, ?_, ?_, ?_, ?_, ?_, ?_, ?_, ?_, ?_, fun x => ⟨raised.1 _ (by simp) x, raised.1 _ (by simp) x⟩,
      answer_get _ _ _ _, ?_, ?_, ?_, ?_, ?_, ?_⟩ <;> rw [part]
    case refine_9 =>
      change (((p.newRecord ((manualTripOf m).fields p.seq.shotsUsed) :: p.records.ring).take 16).map _).head? = _
      rw [List.take_succ_cons, List.map_cons, List.head?_cons, if_pos (by rfl)]
      rfl
    all_goals rfl
  · have taken : seqTripRequest m p = (p, .inProgress) := by
      simp only [seqTripRequest, state, if_neg notOpen, order, if_true, seqTrip, placeTrip]
    rw [taken]
    rfl
  · have taken : seqTripRequest m p = (p, .huntAbandoned) := by
      simp [seqTripRequest, state, abandonIfRunning, running]
    rw [taken]
    rfl
  · have taken : seqTripRequest m p = (abandon .manual (some (.master m)) (manualCall m) p, .huntAbandoned) := by
      simp [seqTripRequest, hunted.held, abandonIfRunning, hunted.running]
    rw [taken]
    exact ⟨_, rfl, abandon_spec _ _ _ (by simp) hunted.sound hunted.own⟩
  all_goals
    have taken : seqTripRequest m p = (abandon .manual (some (.master m)) (manualCall m) p, .huntAbandoned) := by
      simp [seqTripRequest, state, abandonIfRunning, running]
    rw [taken]
    obtain ⟨left, raised⟩ := abandonStart_left .manual (some (.master m)) p
  · rw [abandon_of_opened opened order, left, handBack_lockout (by exact sound)]
    refine ⟨_, rfl, ⟨hasBlock_hunt_of_entriesLeft (p := p) rfl, fun x => raise_kept _ _ _ _ (raised.1 _ (by simp) x),
      answer_get _ _ _ _, rfl, rfl, rfl, rfl⟩, rfl, rfl, rfl, rfl, rfl⟩
  · rw [abandon_waits _ _ (by simp) notOpen order]
    exact ⟨_, rfl, ⟨hasBlock_hunt_of_entriesLeft (p := p) rfl, raised.1 _ (by simp), answer_get _ _ _ _, rfl, rfl, rfl, rfl⟩,
      rfl, rfl, rfl, rfl, rfl⟩
  · obtain ⟨tripped, tripRaised⟩ := huntTrip_eq (manualCall m) (p := { p with
      hunt := p.hunt.abandonedBy .manual (some (.master m)) true, entries := p.entriesLeft
      notices := (abandonStart .manual (some (.master m)) p).notices }) notOpen order
    rw [abandon_trips _ _ (by simp) notOpen order]
    have part := congrArg Prod.fst tripped
    generalize (huntTrip (manualCall m) _).1 = q at part tripRaised
    refine ⟨_, rfl, ⟨hasBlock_hunt_of_entriesLeft (p := p) ?_, fun x => tripRaised.2 x _ (raised.1 _ (by simp) x),
      answer_get _ _ _ _, ?_, ?_, ?_, ?_⟩, ?_, ?_, ?_, ?_, ?_,
      fun x => ⟨tripRaised.1 _ (by simp) x, tripRaised.1 _ (by simp) x⟩⟩ <;> (rw [part]; rfl)

end Sys2Proof.Machine
end SequencerTrips

/-! SUPPORT. OPEN and CLOSED, as completed orders and as external operations, and the hunt that a lockout starts: O34, O33. -/
section OpenAndClosed
namespace Sys2Proof.Machine

/-! ## Elements told the position (R18, R19) -/

theorem elementsOpened_of_not_closing {p : Part} (order : p.mech.order ≠ .close) :
    elementsOpened p = { p with elements := Elements.cleared } := by
  simp [elementsOpened, Part.inTestClose, order, Elements.cleared, noLanes]

/-- The cold-load window that a close may start, in the words of the statements (R20, R29). -/
theorem startedColdLoad_eq (p : Part) : p.startedColdLoad = p.coldLoadAfterClose := by
  unfold Part.startedColdLoad Part.coldLoadAfterClose Part.openCountQualifies
  simp only [Bool.and_eq_true, decide_eq_true_eq]

/-- An external close, and a close of the kinds that arm the SOTF window (R19, R28, R29). -/
theorem elementsClosed_armed {p : Part} {byOrder : Bool}
    (arms : byOrder = false ∨ p.elements.closeKind = .manual ∨ p.elements.closeKind = .huntRestore) :
    elementsClosed byOrder p =
      { p with
        elements :=
          { p.elements with
            sotf := some (p.settings.sotfWindow.getD 0 / 10), coldLoad := p.coldLoadAfterClose, mode := .normal
            closeKind := .none } } := by
  rw [← startedColdLoad_eq]
  rcases arms with rfl | kind | kind
  · rfl
  · cases byOrder <;> simp only [elementsClosed, kind] <;> rfl
  · cases byOrder <;> simp only [elementsClosed, kind] <;> rfl

/-- An automatic close arms no SOTF window (R19). -/
theorem elementsClosed_automatic {p : Part} (kind : p.elements.closeKind = .automatic) :
    elementsClosed true p =
      { p with
        elements := { p.elements with coldLoad := p.coldLoadAfterClose, mode := .normal, closeKind := .none } } := by
  rw [← startedColdLoad_eq]
  simp only [elementsClosed, kind, if_true]

/-! ## External operations (R52, R73, R74) -/

theorem becomesOpen_external {p : Part} (order : p.mech.order = .none) (settled : p.mech.settled = some .closed) :
    becomesOpen p = huntExternal (seqExternalOpen
      { p with mech := { p.mech with settled := some .opened }, elements := Elements.cleared }) := by
  have noTrip : ¬p.mech.order = .trip := by simp [order]
  have cleared := elementsOpened_of_not_closing (p := settle .opened p) (by simp [settle, order])
  rw [becomesOpen, if_neg (by simp [settled]), completeTrip, if_neg noTrip, decide_eq_false noTrip]
  change huntExternal (seqExternalOpen (elementsOpened (settle .opened p))) = _
  rw [cleared]
  rfl

theorem becomesClosed_external {p : Part} (order : p.mech.order = .none) (settled : p.mech.settled = some .opened) :
    becomesClosed p = huntExternal (seqExternalClose
      { p with
        mech := { p.mech with settled := some .closed }
        elements :=
          { p.elements with
            sotf := some (p.settings.sotfWindow.getD 0 / 10), coldLoad := p.coldLoadAfterClose, mode := .normal
            closeKind := .none } }) := by
  have noClose : ¬p.mech.order = .close := by simp [order]
  have armed := elementsClosed_armed (p := settle .closed p) (byOrder := false) (.inl rfl)
  rw [becomesClosed, if_neg (by simp [settled]), completeClose, if_neg noClose, decide_eq_false noClose]
  change huntExternal (seqExternalClose (elementsClosed false (settle .closed p))) = _
  rw [armed]
  rfl

/-- An external open of a breaker in service locks out (R73). -/
theorem seqExternalOpen_of_service {p : Part} (h : p.seq.state = .closed ∨ p.seq.state = .reclaim) :
    seqExternalOpen p = enterLockout .externalOpen { p with seq := { p.seq with openingMoment := some p.clock } } := by
  rcases h with h | h <;> simp only [seqExternalOpen, h]

theorem seqExternalOpen_of_held {p : Part} (h : p.seq.state = .huntHeld) : seqExternalOpen p = p := by
  simp only [seqExternalOpen, h]

/-- An external close in LOCKOUT puts the breaker back in service (R74). -/
theorem seqExternalClose_of_lockout {p : Part} (h : p.seq.state = .lockout) : seqExternalClose p = enterClosed p := by
  simp only [seqExternalClose, h]

theorem seqExternalClose_of_held {p : Part} (h : p.seq.state = .huntHeld) : seqExternalClose p = p := by
  simp only [seqExternalClose, h]

/-- With no hunt running an external operation is none of the Hunt's (R145). -/
theorem huntExternal_of_not_running {p : Part} (h : p.hunt.state.running = false) : huntExternal p = p := by
  simp [huntExternal, abandonIfRunning, h]

theorem huntExternal_of_running {p : Part} (h : p.hunt.state.running = true) :
    huntExternal p = abandon .external none emptyCall p := if_pos h

theorem exec_contactChange_opened {s : State} (started : s.started = true)
    (moved : ¬(s.mech.openMade = true ∧ s.mech.closedMade = false)) :
    exec (.contactChange true false) s = .next (s.withPart (becomesOpen (moveContacts true false s.toPart))) := by
  change Host.Outcome.next (s.withPart (contactsChanged true false s.toPart)) = _
  rw [contactsChanged_opened started moved]

theorem exec_contactChange_closed {s : State} (started : s.started = true)
    (moved : ¬(s.mech.openMade = false ∧ s.mech.closedMade = true)) :
    exec (.contactChange false true) s = .next (s.withPart (becomesClosed (moveContacts false true s.toPart))) := by
  change Host.Outcome.next (s.withPart (contactsChanged false true s.toPart)) = _
  rw [contactsChanged_closed started moved]

/-- Settles O34: the Sequencer's part with no hunt running, the Hunt's with the breaker lent. -/
theorem externalOperationTaken : Obligations.ExternalOperationTaken := by
  intro s started order contacts
  refine ⟨fun moved settled => ⟨fun running state => ?_, fun hunted => ?_⟩,
    fun moved settled => ⟨fun running state => ?_, fun hunted => ?_⟩⟩
  · rw [exec_contactChange_opened started moved, becomesOpen_external (by exact order) (by exact settled),
      seqExternalOpen_of_service (by exact state), huntExternal_of_not_running (by simpa using running)]
    exact ⟨_, rfl, rfl, rfl, rfl, rfl, rfl, rfl, rfl, fun m => (enterLockout_raised _ _).1 _ (by simp) m, rfl, rfl, rfl, rfl, rfl⟩
  · rw [exec_contactChange_opened started moved, becomesOpen_external (by exact order) (by exact settled),
      seqExternalOpen_of_held (by exact hunted.held), huntExternal_of_running (by exact hunted.running)]
    exact ⟨_, rfl, abandon_spec none {} none (by simp) hunted.sound hunted.own⟩
  · rw [exec_contactChange_closed started moved, becomesClosed_external (by exact order) (by exact settled),
      seqExternalClose_of_lockout (by exact state), huntExternal_of_not_running (by exact running)]
    exact ⟨_, rfl, rfl, rfl, rfl, rfl, rfl, rfl, rfl, rfl, rfl, rfl⟩
  · rw [exec_contactChange_closed started moved, becomesClosed_external (by exact order) (by exact settled),
      seqExternalClose_of_held (by exact hunted.held), huntExternal_of_running (by exact hunted.running)]
    exact ⟨_, rfl, abandon_spec none {} none (by simp) hunted.sound hunted.own⟩

/-! ## The start of a hunt (R130, R131) -/

/-- The part as a hunt starts, HUNT in the list and the breaker lent, before the first step is planned (R130, R75). -/
def Part.huntBegun (starter : StartedBy) (p : Part) : Part :=
  raise .blocks
    { p with
      hunt :=
        { p.hunt with
          state := .ordering, startedBy := starter, lo := 0, hi := p.table.n.getD 0, testsUsed := 0, ordersIssued := 0
          unusable := 0, handBackPending := false, testLimit := p.settings.huntTestLimit
          testPickup := p.settings.sefPickup }
      entries := p.entries ++ [⟨.hunt, .part, 0, p.uptime, none, none, none⟩]
      seq := { p.seq with state := .huntHeld, failureNoted := false } }

theorem beginHunt_eq {p : Part} (starter : StartedBy) (state : p.seq.state = .lockout) (hunt : p.hasBlock .hunt = false) :
    beginHunt starter p = plan (p.huntBegun starter) := by
  have absent : (huntInit starter p).hasBlock .hunt = false := hunt
  unfold beginHunt placeHunt
  rw [absent, seqBlockPlaced_of_not_waiting (p := huntInit starter p) .hunt (by simp [huntInit, state])
    (by simp [huntInit, state]) (by simp [huntInit, state])]
  rfl

/-- With every switch believed CLOSED the plan's probe is the best switch, and its order to OPEN is issued (R131, R132). -/
theorem plan_orders_probe {p : Part} {q : Nat} (sections : p.hunt.lo ≠ p.hunt.hi)
    (tests : some p.hunt.testsUsed ≠ p.hunt.testLimit) (probe : p.mayProbe q)
    (best : ∀ j : Nat, p.mayProbe j →
      probeScore p.hunt.lo p.hunt.hi q < probeScore p.hunt.lo p.hunt.hi j ∨
        (probeScore p.hunt.lo p.hunt.hi q = probeScore p.hunt.lo p.hunt.hi j ∧ q ≤ j))
    (closed : ∀ i : Nat, 1 ≤ i → i ≤ q → p.believed i = .closed) (opened : p.position = .opened) :
    plan p =
      raise .huntOrder
        { p with
          hunt :=
            { p.hunt with
              probe := some q, doubtfulSeen := false, state := .ordering
              outstanding := some ⟨p.hunt.nextOrder, q, (p.table.switch q).ident.getD 0, .openSwitch⟩
              nextOrder := p.hunt.nextOrder + 1, ordersIssued := min (p.hunt.ordersIssued + 1) 255
              orderTimer := some (p.clock + p.table.timeout.getD 0 * 1000) } } := by
  obtain ⟨above, -, operable, -⟩ := id probe
  have below : Part.lowestNotClosed
      { p with hunt := { p.hunt with probe := some q, doubtfulSeen := false, state := .ordering } } (q - 1) = none :=
    Part.lowestNotClosed_eq_none fun i h1 h2 => closed i h1 (by omega)
  have toOpen : Part.believed
      { p with hunt := { p.hunt with probe := some q, doubtfulSeen := false, state := .ordering } } q ≠ .opened := by
    have := closed q (by omega) le_rfl
    exact fun h => absurd (this.symm.trans h) (by simp)
  unfold plan
  rw [if_neg sections, if_neg tests, bestProbe_candidates probe best]
  simp only [deriveOrder, below, if_pos toOpen]
  exact issueOrder_eq .openSwitch opened operable

/-- With no switch that a probe may open the hunt concludes at once in LOCKOUT (R131, R142, R144). -/
theorem plan_concludes {p : Part} (lo : p.hunt.lo = 0) (sections : p.hunt.lo ≠ p.hunt.hi)
    (tests : some p.hunt.testsUsed ≠ p.hunt.testLimit) (noProbe : ∀ m : Nat, ¬p.mayProbe m) :
    plan p =
      conclude .lockout
        { p with hunt := { p.hunt with state := .restoring, probe := none, restoreReason := .noCandidate } } := by
  have none : p.candidates = [] :=
    List.eq_nil_iff_forall_not_mem.mpr fun m hm => noProbe m (mem_candidates.1 hm)
  unfold plan
  rw [if_neg sections, if_neg tests, none]
  simp only [bestProbe, enterRestoration, restoreStep]
  rw [if_pos lo]

/-- The switches that the first probe of a hunt may open. -/
theorem mayProbe_huntBegun {p : Part} {starter : StartedBy} {j : Nat} :
    (p.huntBegun starter).mayProbe j ↔ 1 ≤ j ∧ j ≤ p.table.n.getD 0 ∧ (p.table.switch j).operable = true := by
  have unusable : hasPosition (p.huntBegun starter).hunt.unusable j = false := by
    change hasPosition 0 j = false
    simp [hasPosition]
  unfold Part.mayProbe
  rw [unusable]
  exact ⟨fun ⟨h1, h2, h3, _⟩ => ⟨h1, h2, h3⟩, fun ⟨h1, h2, h3⟩ => ⟨h1, h2, h3, rfl⟩⟩

/-- The list with a HUNT block that leaves it again. -/
theorem entriesLeft_of_hunt_added {p q : Part} {e : BlockEntry} (h : p.hasBlock .hunt = false) (kind : e.kind = .hunt)
    (added : q.entries = p.entries ++ [e]) : q.entriesLeft = p.entries := by
  unfold Part.entriesLeft
  rw [added, List.filter_append]
  simpa [kind, Part.hasBlock] using h

/-- The first probe of a hunt, and its order (R130 to R132). -/
theorem plan_huntBegun_probe {p : Part} {starter : StartedBy} {size q limit : Nat} (sections : p.table.n = some size)
    (tests : p.settings.huntTestLimit = some limit) (positive : 0 < limit)
    (closed : ∀ j : Nat, 1 ≤ j → j ≤ size → p.believed j = .closed) (opened : p.position = .opened) (above : 1 ≤ q)
    (below : q ≤ size) (operable : (p.table.switch q).operable = true)
    (best : ∀ j : Nat, 1 ≤ j → j ≤ size → (p.table.switch j).operable = true →
      probeScore 0 size q < probeScore 0 size j ∨ (probeScore 0 size q = probeScore 0 size j ∧ q ≤ j)) :
    plan (p.huntBegun starter) =
      raise .huntOrder
        { p.huntBegun starter with
          hunt :=
            { p.hunt with
              state := .ordering, startedBy := starter, lo := 0, hi := size, probe := some q, doubtfulSeen := false
              testsUsed := 0, testLimit := some limit, testPickup := p.settings.sefPickup, unusable := 0
              outstanding := some ⟨p.hunt.nextOrder, q, (p.table.switch q).ident.getD 0, .openSwitch⟩
              nextOrder := p.hunt.nextOrder + 1, ordersIssued := 1, handBackPending := false
              orderTimer := some (p.clock + p.table.timeout.getD 0 * 1000) } } := by
  have hi : p.table.n.getD 0 = size := by rw [sections, Option.getD_some]
  have nonEmpty : (p.huntBegun starter).hunt.lo ≠ (p.huntBegun starter).hunt.hi := by
    change 0 ≠ p.table.n.getD 0
    omega
  have untested : some (p.huntBegun starter).hunt.testsUsed ≠ (p.huntBegun starter).hunt.testLimit := by
    change some 0 ≠ p.settings.huntTestLimit
    simp [tests]
    omega
  have probe : (p.huntBegun starter).mayProbe q := mayProbe_huntBegun.mpr ⟨above, hi ▸ below, operable⟩
  have nearest : ∀ j : Nat, (p.huntBegun starter).mayProbe j → probeScore 0 (p.table.n.getD 0) q < probeScore 0 (p.table.n.getD 0) j ∨
      (probeScore 0 (p.table.n.getD 0) q = probeScore 0 (p.table.n.getD 0) j ∧ q ≤ j) := by
    intro j hj
    obtain ⟨h1, h2, h3⟩ := mayProbe_huntBegun.mp hj
    rw [hi] at h2 ⊢
    exact best j h1 h2 h3
  rw [plan_orders_probe nonEmpty untested probe nearest (fun i h1 h2 => closed i h1 (by omega)) opened, ← tests, ← hi]
  rfl

/-- A hunt with no switch to probe concludes in LOCKOUT as it starts (R131, R142, R144). -/
theorem plan_huntBegun_none {p : Part} {starter : StartedBy} {size limit : Nat} (sections : p.table.n = some size)
    (some' : 1 ≤ size) (tests : p.settings.huntTestLimit = some limit) (positive : 0 < limit) (hunt : p.hasBlock .hunt = false)
    (inoperable : ∀ j : Nat, 1 ≤ j → j ≤ size → (p.table.switch j).operable = false) :
    plan (p.huntBegun starter) =
        { p with
          hunt :=
            { p.hunt with
              state := .concluded, startedBy := starter, lo := 0, hi := size, probe := none, testsUsed := 0
              testLimit := some limit, testPickup := p.settings.sefPickup, unusable := 0, ordersIssued := 0
              handBackPending := false, restoreReason := .noCandidate
              result := some
                { outcome := .concludedRange, reason := .noCandidate, detail := none, startedBy := starter, lo := 0
                  hi := size, testsUsed := 0, testLimit := limit, ordersIssued := 0, unusable := 0 } }
          elements := { p.elements with mode := .normal }
          seq := { p.seq with failureNoted := false }.lockedOut .huntEnd
          notices := (plan (p.huntBegun starter)).notices } ∧
      RaisedSince (p.huntBegun starter) (plan (p.huntBegun starter)) [.lockout, .huntEnd] := by
  have hi : p.table.n.getD 0 = size := by rw [sections, Option.getD_some]
  have nonEmpty : (p.huntBegun starter).hunt.lo ≠ (p.huntBegun starter).hunt.hi := by
    change 0 ≠ p.table.n.getD 0
    omega
  have untested : some (p.huntBegun starter).hunt.testsUsed ≠ (p.huntBegun starter).hunt.testLimit := by
    change some 0 ≠ p.settings.huntTestLimit
    simp [tests]
    omega
  have noProbe : ∀ j : Nat, ¬(p.huntBegun starter).mayProbe j := by
    intro j hj
    obtain ⟨h1, h2, h3⟩ := mayProbe_huntBegun.mp hj
    rw [inoperable j h1 (hi ▸ h2)] at h3
    contradiction
  rw [plan_concludes rfl nonEmpty untested noProbe]
  obtain ⟨N, concluded, raised, -⟩ := conclude_spec .lockout
    { p.huntBegun starter with
      hunt := { (p.huntBegun starter).hunt with state := .restoring, probe := none, restoreReason := .noCandidate } }
  rw [concluded, handBack_lockout (by rfl), raise_eq .lockout]
  refine ⟨?_, ?_⟩
  · have left : Part.entriesLeft { p.huntBegun starter with
        hunt := { (p.huntBegun starter).hunt with state := .restoring, probe := none, restoreReason := .noCandidate } } =
        p.entries := entriesLeft_of_hunt_added hunt rfl rfl
    simp only [Hunt.concludedBy, if_neg nonEmpty, left]
    simp only [Part.huntBegun, raise_frame, hi, tests, Option.getD_some]
    rfl
  · have kept : RaisedSince (p.huntBegun starter) _ [.huntEnd] := raised.of (r := { p.huntBegun starter with notices := N }) fun _ _ => id
    exact (RaisedSince.raise (k := .lockout) kept (by simp)).congr rfl

/-! ## OPEN completes the Sequencer's trip order (R42, R48, R59) -/

/-- The part once OPEN has ended a trip order, as the placer takes OPENED (R48, R156). -/
def Part.tripEnded (n : Nat) (p : Part) : Part :=
  { p with
    mech :=
      { p.mech with
        openMade := true, closedMade := false, travelTimer := none, discrepancyTimer := none, order := .none
        placer := none, orderTimer := none, tripOutput := false, closeOutput := false }
    records :=
      { p.records with
        ring := p.records.ring.map fun r => if r.number = n then { r with outcome := .opened } else r
        pendingRecord := none } }

/-- The same as the Sequencer weighs what follows (R59). -/
def Part.tripCompleted (n : Nat) (p : Part) : Part :=
  { p.tripEnded n with seq := { p.seq with openingMoment := some p.clock } }

/-- OPEN completes a trip order before it is announced (R48, R42). -/
theorem exec_contactChange_tripEnded {n : Nat} {s : State} (started : s.started = true)
    (moved : ¬(s.mech.openMade = true ∧ s.mech.closedMade = false)) (order : s.mech.order = .trip)
    (settled : s.mech.settled = some .closed) (record : s.records.pendingRecord = some n) :
    exec (.contactChange true false) s =
      .next (s.withPart (elementsOpened (settle .opened (openedTaken s.mech.placer (s.toPart.tripEnded n))))) := by
  have done : completeTrip (moveContacts true false s.toPart) = openedTaken s.mech.placer (s.toPart.tripEnded n) := by
    rw [completeTrip, if_pos (by exact order), completeRecord_some (n := n) .opened (by exact record)]
    simp [moveContacts, endOrder, Part.position, Mechanism.position, Part.tripEnded]
  rw [exec_contactChange_opened started moved, becomesOpen, if_neg (by simp [moveContacts, settled]), done,
    decide_eq_true (by exact order)]
  rfl

/-- OPEN completes a trip order of the Sequencer's (R59). -/
theorem exec_contactChange_trip {n : Nat} {s : State} (started : s.started = true)
    (moved : ¬(s.mech.openMade = true ∧ s.mech.closedMade = false)) (order : s.mech.order = .trip)
    (placer : s.mech.placer = some .sequencer) (settled : s.mech.settled = some .closed) (state : s.seq.state = .tripping)
    (record : s.records.pendingRecord = some n) :
    exec (.contactChange true false) s =
      .next (s.withPart (elementsOpened (settle .opened (chooseShot (s.toPart.tripCompleted n))))) := by
  have taken : openedTaken s.mech.placer (s.toPart.tripEnded n) = chooseShot (s.toPart.tripCompleted n) := by
    rw [placer]
    exact if_pos state
  rw [exec_contactChange_tripEnded started moved order settled record, taken]

/-- A lockout on a cause that the Hunt is not offered, or does not take (R60, R128, R129). -/
theorem lockoutOnCause_of_no_hunt {p : Part}
    (h : ¬((p.seq.causes.sef = true ∧ p.settings.autoHunt = some 1) ∧ startRefusal (enterLockout .tripCause p) = none)) :
    lockoutOnCause p = enterLockout .tripCause p := by
  unfold lockoutOnCause
  dsimp only
  split
  next offered => exact if_neg fun startable => h ⟨by simpa using offered, startable⟩
  next => rfl

/-- An SEF lockout that starts a hunt (R60 item 5, R129). -/
theorem lockoutOnCause_of_hunt {p : Part} (sef : p.seq.causes.sef = true) (auto : p.settings.autoHunt = some 1)
    (startable : startRefusal (enterLockout .tripCause p) = none) (hunt : p.hasBlock .hunt = false) :
    lockoutOnCause p = plan ((enterLockout .tripCause p).huntBegun .automatic) := by
  unfold lockoutOnCause offerHunt
  rw [if_pos (by simp [sef, auto]), if_pos startable]
  exact beginHunt_eq .automatic rfl hunt

/-- The part once CLOSED has ended a close order, as the placer takes CLOSED (R50). -/
def Part.closeCompleted (p : Part) : Part :=
  { p with
    mech :=
      { p.mech with
        openMade := false, closedMade := true, travelTimer := none, discrepancyTimer := none, order := .none
        placer := none, orderTimer := none, tripOutput := false, closeOutput := false } }

/-- CLOSED completes a close order before it is announced (R50, R42). -/
theorem exec_contactChange_close {s : State} (started : s.started = true)
    (moved : ¬(s.mech.openMade = false ∧ s.mech.closedMade = true)) (order : s.mech.order = .close)
    (settled : s.mech.settled = some .opened) :
    exec (.contactChange false true) s =
      .next (s.withPart (elementsClosed true (settle .closed (closedTaken s.mech.placer s.toPart.closeCompleted)))) := by
  have done : completeClose (moveContacts false true s.toPart) = closedTaken s.mech.placer s.toPart.closeCompleted := by
    rw [completeClose, if_pos (by exact order)]
    simp [moveContacts, endOrder, Part.position, Mechanism.position, Part.closeCompleted]
  rw [exec_contactChange_closed started moved, becomesClosed, if_neg (by simp [moveContacts, settled]), done,
    decide_eq_true (by exact order)]
  rfl

/-- An automatic close completed: RECLAIM, and no SOTF window (R50, R64, R19). -/
theorem closes_automatic {s : State} (started : s.started = true)
    (moved : ¬(s.mech.openMade = false ∧ s.mech.closedMade = true)) (order : s.mech.order = .close)
    (placer : s.mech.placer = some .sequencer) (settled : s.mech.settled = some .opened) (state : s.seq.state = .closing)
    (purpose : s.seq.purpose = .automatic) (kind : s.elements.closeKind = .automatic) :
    exec (.contactChange false true) s =
      .next (s.withPart { s.toPart with
        mech := { s.toPart.closeCompleted.mech with settled := some .closed }
        elements :=
          { s.elements with coldLoad := s.toPart.coldLoadAfterClose, mode := .normal, closeKind := .none }
        seq := { s.seq with
          state := .reclaim, purpose := .none, closeMoment := some s.clock
          reclaimTimer := some (s.clock + s.toPart.settings.reclaimTime.getD 0 * 1000) } }) := by
  have done : closedTaken s.mech.placer s.toPart.closeCompleted =
      { s.toPart.closeCompleted with
        seq :=
          { s.seq with
            state := .reclaim, purpose := .none, closeMoment := some s.clock
            reclaimTimer := some (s.clock + s.toPart.settings.reclaimTime.getD 0 * 1000) } } := by
    have purpose' : s.toPart.closeCompleted.seq.purpose = .automatic := purpose
    rw [placer]
    change seqCloseDone _ = _
    simp only [seqCloseDone, purpose']
    exact if_pos state
  rw [exec_contactChange_close started moved order settled, done, elementsClosed_automatic (by exact kind)]
  rfl

/-- A manual close completed: CLOSED with no shots used, and the SOTF window armed (R50, R64, R19). -/
theorem closes_manual {s : State} (started : s.started = true)
    (moved : ¬(s.mech.openMade = false ∧ s.mech.closedMade = true)) (order : s.mech.order = .close)
    (placer : s.mech.placer = some .sequencer) (settled : s.mech.settled = some .opened) (state : s.seq.state = .closing)
    (purpose : s.seq.purpose = .manual) (kind : s.elements.closeKind = .manual) :
    exec (.contactChange false true) s =
      .next (s.withPart { s.toPart with
        mech := { s.toPart.closeCompleted.mech with settled := some .closed }
        elements :=
          { s.elements with
            sotf := some (s.toPart.settings.sotfWindow.getD 0 / 10), coldLoad := s.toPart.coldLoadAfterClose
            mode := .normal, closeKind := .none }
        seq := { s.seq.rests .closed with shotsUsed := 0 } }) := by
  have done : closedTaken s.mech.placer s.toPart.closeCompleted = enterClosed s.toPart.closeCompleted := by
    have purpose' : s.toPart.closeCompleted.seq.purpose = .manual := purpose
    rw [placer]
    change seqCloseDone _ = _
    simp only [seqCloseDone, purpose']
    exact if_pos state
  rw [exec_contactChange_close started moved order settled, done, elementsClosed_armed (.inr (.inl (by exact kind)))]
  rfl

/-- The Hunt's close of restoration completed: the hunt concludes and hands the breaker back (R143, R144, R76). -/
theorem closes_restoration {s : State} (started : s.started = true) (placer : s.mech.placer = some .hunt)
    (order : s.mech.order = .close) (moved : ¬(s.mech.openMade = false ∧ s.mech.closedMade = true))
    (settled : s.mech.settled = some .opened) (state : s.hunt.state = .restoring)
    (kind : s.elements.closeKind = .huntRestore) (sound : s.seq.failureNoted = false) :
    ∃ q : Part, exec (.contactChange false true) s = .next (s.withPart q) ∧
      q =
        { s.toPart with
          mech := { s.toPart.closeCompleted.mech with settled := some .closed }
          elements :=
            { s.elements with
              sotf := some (s.toPart.settings.sotfWindow.getD 0 / 10), coldLoad := s.toPart.coldLoadAfterClose
              mode := .normal, closeKind := .none }
          hunt := s.hunt.concludedBy
          entries := s.toPart.entriesLeft
          seq := { s.seq.rests .closed with shotsUsed := 0 }
          notices := q.notices } ∧
      RaisedSince s.toPart q [.huntEnd] ∧
      (s.toPart.hasBlock .hunt = true → ∀ m : Master, q.pendingFor m .blocks = true) := by
  obtain ⟨N, concluded, raised, blocks⟩ := conclude_spec .closed s.toPart.closeCompleted
  have done : closedTaken s.mech.placer s.toPart.closeCompleted = conclude .closed s.toPart.closeCompleted := by
    rw [placer]
    exact if_pos state
  have taken := exec_contactChange_close started moved order settled
  rw [done, concluded, handBack_closed (by exact sound), elementsClosed_armed (.inr (.inr (by exact kind)))] at taken
  exact ⟨_, taken, rfl, raised.congr rfl, blocks⟩

/-- OPENED with the hand-back pending hands the breaker back, by whether a failure has been noted (R147, R76). -/
theorem opens_pending {n : Nat} {s : State} (started : s.started = true) (placer : s.mech.placer = some .hunt)
    (order : s.mech.order = .trip) (moved : ¬(s.mech.openMade = true ∧ s.mech.closedMade = false))
    (settled : s.mech.settled = some .closed) (pending : s.hunt.handBackPending = true)
    (record : s.records.pendingRecord = some n) :
    ∃ q : Part, exec (.contactChange true false) s = .next (s.withPart q) ∧
      q =
        { s.toPart.tripEnded n with
          mech := { (s.toPart.tripEnded n).mech with settled := some .opened }
          elements := Elements.cleared
          hunt := { s.hunt with handBackPending := false }
          seq := if s.seq.failureNoted then s.seq.rests .failed else s.seq.lockedOut .huntEnd
          notices := q.notices } ∧
      RaisedSince s.toPart q (if s.seq.failureNoted then [] else [.lockout]) := by
  have done : openedTaken s.mech.placer (s.toPart.tripEnded n) =
      handBack .lockout { s.toPart.tripEnded n with hunt := { s.hunt with handBackPending := false } } := by
    rw [placer]
    change huntOpened _ = _
    rw [huntOpened, if_pos (by exact pending), handBackPendingDone, if_pos (by exact pending)]
    rfl
  have taken := exec_contactChange_tripEnded started moved order settled record
  rw [done] at taken
  cases noted : s.seq.failureNoted with
  | true =>
    rw [handBack_failed _ (by exact noted), elementsOpened_of_not_closing (by exact Order.noConfusion)] at taken
    exact ⟨_, taken, rfl, fun k hk => absurd hk (by simp), fun _ _ => id⟩
  | false =>
    rw [handBack_lockout (by exact noted), elementsOpened_of_not_closing (by exact Order.noConfusion)] at taken
    refine ⟨_, taken, rfl, ?_⟩
    exact ((RaisedSince.raise (p := s.toPart) (l := []) ⟨fun k hk => absurd hk (by simp), fun _ _ => id⟩
      (by simp)).congr rfl)

/-- What follows a completed opening, by the first of R59's conditions that holds. -/
theorem chooseShot_of_forced {p : Part} {f : Forced} (h : p.seq.forced = some f) : chooseShot p = enterLockout f.reason p := by
  simp only [chooseShot, h]

theorem chooseShot_of_cause {p : Part} (forced : p.seq.forced = none) (h : p.seq.causes.reclosable = false) :
    chooseShot p = lockoutOnCause p := by
  simp [chooseShot, forced, h]

theorem chooseShot_of_exhausted {p : Part} (forced : p.seq.forced = none) (cause : p.seq.causes.reclosable = true)
    (h : p.settings.shots.getD 0 < p.seq.shotsUsed + 1) : chooseShot p = enterLockout .shotsExhausted p := by
  simp only [chooseShot, forced, cause, Bool.not_true, Bool.false_eq_true, if_false, if_pos h]

theorem chooseShot_of_blocked {p : Part} (forced : p.seq.forced = none) (cause : p.seq.causes.reclosable = true)
    (shots : p.seq.shotsUsed + 1 ≤ p.settings.shots.getD 0) (h : p.entries ≠ []) :
    chooseShot p = enterLockout .blocked p := by
  have listed : (!p.entries.isEmpty) = true := by simpa using h
  simp only [chooseShot, forced, cause, Bool.not_true, Bool.false_eq_true, if_false, if_neg (not_lt.mpr shots), if_pos listed]

theorem chooseShot_of_none {p : Part} (forced : p.seq.forced = none) (cause : p.seq.causes.reclosable = true)
    (shots : p.seq.shotsUsed + 1 ≤ p.settings.shots.getD 0) (h : p.entries = []) :
    chooseShot p = enterDeadTime (p.seq.shotsUsed + 1) p := by
  simp only [chooseShot, forced, cause, Bool.not_true, Bool.false_eq_true, if_false, if_neg (not_lt.mpr shots), h,
    List.isEmpty_nil]

/-- What OPEN leaves as it completes a trip order of the Sequencer's, whatever the Sequencer weighs then (R42, R48, R156,
R18). -/
def TripOpened (n : Nat) (s t : State) : Prop :=
  exec (.contactChange true false) s = .next t ∧
    t.mech = { (s.toPart.tripCompleted n).mech with settled := some .opened } ∧
    t.records.pendingRecord = none ∧ t.records.next = s.records.next ∧
    t.records.ring = s.records.ring.map (fun r => if r.number = n then { r with outcome := .opened } else r) ∧
    t.elements.acc = ⟨0, 0, 0, 0⟩ ∧ t.elements.highset = ⟨0, 0, 0⟩ ∧ t.elements.sef = 0 ∧ t.elements.episode = none ∧
    t.elements.sotf = none ∧ t.elements.coldLoad = none ∧ t.elements.openCount = 0 ∧ t.elements.mode = .normal ∧
    t.seq.openingMoment = some s.clock ∧ t.seq.shotsUsed = s.seq.shotsUsed ∧ t.seq.lastTrip = s.seq.lastTrip ∧
    t.posture = s.posture ∧ t.intake = s.intake ∧ t.table = s.table ∧ t.links = s.links ∧ t.store = s.store ∧
    t.clock = s.clock

/-- The part that the Sequencer leaves is then announced OPEN (R42 item 3). -/
theorem tripOpened_of_chosen {n : Nat} {s : State} {r : Part}
    (taken : exec (.contactChange true false) s =
      .next (s.withPart (elementsOpened (settle .opened (chooseShot (s.toPart.tripCompleted n))))))
    (chosen : chooseShot (s.toPart.tripCompleted n) = r) (mech : r.mech = (s.toPart.tripCompleted n).mech)
    (records : r.records = (s.toPart.tripCompleted n).records) (opening : r.seq.openingMoment = some s.clock)
    (shots : r.seq.shotsUsed = s.seq.shotsUsed) (last : r.seq.lastTrip = s.seq.lastTrip) :
    TripOpened n s (s.withPart
      { r with mech := { r.mech with settled := some .opened }, elements := Elements.cleared }) := by
  have frame := chooseShot_frame (s.toPart.tripCompleted n)
  rw [chosen] at taken frame
  obtain ⟨-, -, clock, intake, posture, table, links, store⟩ := frame
  have noClose : (settle .opened r).mech.order ≠ .close := by
    simp [settle, mech, Part.tripCompleted, Part.tripEnded]
  rw [elementsOpened_of_not_closing noClose] at taken
  refine ⟨taken, ?_, ?_, ?_, ?_, rfl, rfl, rfl, rfl, rfl, rfl, rfl, rfl, opening, shots, last, posture, intake, table,
    links, store, clock⟩
  · simp [State.withPart, mech]
  all_goals simp [State.withPart, records, Part.tripCompleted, Part.tripEnded]

/-- A completed opening that locks out (R59, R60). -/
theorem tripOpened_locked {n : Nat} {s : State} {why : LockoutReason}
    (taken : exec (.contactChange true false) s =
      .next (s.withPart (elementsOpened (settle .opened (chooseShot (s.toPart.tripCompleted n))))))
    (chosen : chooseShot (s.toPart.tripCompleted n) = enterLockout why (s.toPart.tripCompleted n)) :
    ∃ t : State, TripOpened n s t ∧ t.seq.state = .lockout ∧ t.seq.lockoutReason = some why ∧ t.seq.forced = none ∧
      t.seq.pendingShot = none ∧ t.seq.purpose = .none ∧ t.seq.deadTimer = none ∧ t.seq.closeWaitTimer = none ∧
      t.seq.reclaimTimer = none ∧ (∀ m : Master, t.pendingFor m .lockout = true) ∧ t.entries = s.entries ∧
      t.hunt = s.hunt := by
  have locked := (enterLockout_raised why (s.toPart.tripCompleted n)).1 .lockout (by simp)
  exact ⟨_, tripOpened_of_chosen taken chosen rfl rfl rfl rfl rfl, rfl, rfl, rfl, rfl, rfl, rfl, rfl, rfl, locked, rfl, rfl⟩

/-- A completed opening that starts a hunt with a first probe (R129 to R132). -/
theorem tripOpened_probe {n size q limit : Nat} {s : State}
    (taken : exec (.contactChange true false) s =
      .next (s.withPart (elementsOpened (settle .opened (chooseShot (s.toPart.tripCompleted n))))))
    (chosen : chooseShot (s.toPart.tripCompleted n) =
      plan ((enterLockout .tripCause (s.toPart.tripCompleted n)).huntBegun .automatic))
    (sections : s.table.n = some size) (tests : s.toPart.settings.huntTestLimit = some limit) (positive : 0 < limit)
    (closed : ∀ j : Nat, 1 ≤ j → j ≤ size → s.toPart.believed j = .closed) (above : 1 ≤ q) (below : q ≤ size)
    (operable : (s.table.switch q).operable = true)
    (best : ∀ j : Nat, 1 ≤ j → j ≤ size → (s.table.switch j).operable = true →
      probeScore 0 size q < probeScore 0 size j ∨ (probeScore 0 size q = probeScore 0 size j ∧ q ≤ j)) :
    ∃ t : State, TripOpened n s t ∧ t.seq.state = .huntHeld ∧ t.seq.failureNoted = false ∧
      t.seq.lockoutReason = some .tripCause ∧
      t.entries = s.entries ++ [⟨.hunt, .part, 0, s.toPart.uptime, none, none, none⟩] ∧
      t.hunt =
        { s.hunt with
          state := .ordering, startedBy := .automatic, lo := 0, hi := size, probe := some q, doubtfulSeen := false
          testsUsed := 0, testLimit := some limit, testPickup := s.toPart.settings.sefPickup, unusable := 0
          outstanding := some ⟨s.hunt.nextOrder, q, (s.table.switch q).ident.getD 0, .openSwitch⟩
          nextOrder := s.hunt.nextOrder + 1, ordersIssued := 1, handBackPending := false
          orderTimer := some (s.clock + s.table.timeout.getD 0 * 1000) } ∧
      t.pendingFor .control .huntOrder = true ∧
      ∀ m : Master, t.pendingFor m .lockout = true ∧ t.pendingFor m .blocks = true := by
  have locked := (enterLockout_raised .tripCause (s.toPart.tripCompleted n)).1 .lockout (by simp)
  have probed := chosen.trans (plan_huntBegun_probe (p := enterLockout .tripCause (s.toPart.tripCompleted n)) sections tests
    positive closed rfl above below operable best)
  refine ⟨_, tripOpened_of_chosen taken probed rfl rfl rfl rfl rfl, rfl, rfl, rfl, rfl, rfl, ?_, fun m => ⟨?_, ?_⟩⟩
  · exact (raise_pendingFor .huntOrder _ .control .huntOrder).trans (by simp)
  · exact raise_kept _ _ m .lockout (raise_kept .blocks _ m .lockout (locked m))
  · exact raise_kept .huntOrder _ m .blocks (raise_pending (by simp) _ m)

/-- A completed opening whose hunt has no switch to probe (R131, R142, R144). -/
theorem tripOpened_no_probe {n size limit : Nat} {s : State}
    (taken : exec (.contactChange true false) s =
      .next (s.withPart (elementsOpened (settle .opened (chooseShot (s.toPart.tripCompleted n))))))
    (chosen : chooseShot (s.toPart.tripCompleted n) =
      plan ((enterLockout .tripCause (s.toPart.tripCompleted n)).huntBegun .automatic))
    (sections : s.table.n = some size) (nonEmpty : 1 ≤ size) (tests : s.toPart.settings.huntTestLimit = some limit)
    (positive : 0 < limit) (hunt : s.toPart.hasBlock .hunt = false)
    (inoperable : ∀ j : Nat, 1 ≤ j → j ≤ size → (s.table.switch j).operable = false) :
    ∃ t : State, TripOpened n s t ∧ t.seq.state = .lockout ∧ t.seq.lockoutReason = some .huntEnd ∧ t.entries = s.entries ∧
      t.hunt =
        { s.hunt with
          state := .concluded, startedBy := .automatic, lo := 0, hi := size, probe := none, testsUsed := 0
          testLimit := some limit, testPickup := s.toPart.settings.sefPickup, unusable := 0, ordersIssued := 0
          handBackPending := false, restoreReason := .noCandidate
          result := some
            { outcome := .concludedRange, reason := .noCandidate, detail := none, startedBy := .automatic, lo := 0
              hi := size, testsUsed := 0, testLimit := limit, ordersIssued := 0, unusable := 0 } } ∧
      ∀ m : Master, t.pendingFor m .lockout = true ∧ t.pendingFor m .blocks = true ∧ t.pendingFor m .huntEnd = true := by
  obtain ⟨concluded, raised⟩ := plan_huntBegun_none (p := enterLockout .tripCause (s.toPart.tripCompleted n))
    (starter := .automatic) sections nonEmpty tests positive hunt inoperable
  refine ⟨_, tripOpened_of_chosen taken (chosen.trans concluded) rfl rfl rfl rfl rfl, rfl, rfl, rfl, rfl,
    fun m => ⟨?_, ?_, ?_⟩⟩
  · exact raised.1 .lockout (by simp) m
  · exact raised.2 m .blocks (raise_pending (by simp) _ m)
  · exact raised.1 .huntEnd (by simp) m

/-- Settles O33: R59's conditions in their order, then the completed closes, then the hand-back. -/
theorem openCompletesTrip : Obligations.OpenCompletesTrip := by
  refine ⟨?_, ?_, ?_⟩
  · intro n s started moved order placer settled state record settings done locked c outside offered startable
    have taken := exec_contactChange_trip started moved order placer settled state record
    have causes : (s.toPart.tripCompleted n).seq.causes.reclosable = !outside := rfl
    have startable_iff : startRefusal (enterLockout .tripCause (s.toPart.tripCompleted n)) = none ↔ startable := by
      rw [startRefusal_eq_none]
      exact ⟨fun h => h.2, fun h => ⟨rfl, h⟩⟩
    have began : s.seq.forced = none → offered → startable → s.toPart.hasBlock .hunt = false →
        chooseShot (s.toPart.tripCompleted n) =
          plan ((enterLockout .tripCause (s.toPart.tripCompleted n)).huntBegun .automatic) := by
      intro forced sef start hunt
      have out : outside = true := by
        change (s.seq.causes.sef || _ || _ || _) = true
        rw [sef.1]
        rfl
      rw [chooseShot_of_cause (p := s.toPart.tripCompleted n) forced (by rw [causes, out]; rfl)]
      exact lockoutOnCause_of_hunt (p := s.toPart.tripCompleted n) sef.1 sef.2 (startable_iff.mpr start) hunt
    refine ⟨fun f forced => tripOpened_locked taken ?_, fun forced out noHunt => tripOpened_locked taken ?_,
      fun size q limit forced sef start sections tests positive hunt above below operable best => ?_,
      fun size limit forced sef start sections nonEmpty tests positive hunt inoperable =>
        tripOpened_no_probe taken (began forced sef start hunt) sections nonEmpty tests positive hunt inoperable,
      fun forced out shots => tripOpened_locked taken ?_, fun forced out shots entries => tripOpened_locked taken ?_,
      fun forced out shots entries => ?_⟩
    · exact chooseShot_of_forced (p := s.toPart.tripCompleted n) forced
    · rw [chooseShot_of_cause (p := s.toPart.tripCompleted n) forced (by rw [causes, out]; rfl)]
      exact lockoutOnCause_of_no_hunt (p := s.toPart.tripCompleted n) fun h => noHunt ⟨h.1, startable_iff.mp h.2⟩
    · obtain ⟨-, -, closed, -⟩ := id start
      exact tripOpened_probe taken (began forced sef start hunt) sections tests positive
        (fun j h1 h2 => closed j h1 (by rwa [sections])) above below operable best
    · exact chooseShot_of_exhausted (p := s.toPart.tripCompleted n) forced (by rw [causes, out]; rfl) shots
    · exact chooseShot_of_blocked (p := s.toPart.tripCompleted n) forced (by rw [causes, out]; rfl) shots entries
    · have chosen := chooseShot_of_none (p := s.toPart.tripCompleted n) forced (by rw [causes, out]; rfl) shots entries
      exact ⟨_, tripOpened_of_chosen taken chosen rfl rfl rfl rfl rfl, rfl, rfl, rfl, rfl, rfl, rfl⟩
  · intro s started moved order placer settled state settings mech coldLoad
    have coldLoad_eq : coldLoad = s.toPart.coldLoadAfterClose := rfl
    rw [coldLoad_eq]
    exact ⟨closes_automatic started moved order placer settled state, closes_manual started moved order placer settled state⟩
  · intro s started held placer ended
    exact ⟨closes_restoration started placer, fun n => opens_pending started placer⟩

end Sys2Proof.Machine
end OpenAndClosed

/-! SUPPORT. Frames and the loss counter: O22 to O24. -/
section IntakeFrames
namespace Sys2Proof.Machine

/-! ## Frames as they are read (R1, R2) -/

theorem readFrame_eq_none {bytes : List Byte} (h : bytes.length ≠ 10) : readFrame bytes = none := by
  unfold readFrame
  split
  · exact absurd rfl h
  · rfl

/-- A frame of ten bytes reads, and its first byte is its number. -/
theorem readFrame_cons {b : Byte} {rest : List Byte} (h : (b :: rest).length = 10) :
    ∃ f : FrameRecord, readFrame (b :: rest) = some f ∧ f.seq = b := by
  match rest, h with
  | [_, _, _, _, _, _, _, _, _], _ => exact ⟨_, rfl, rfl⟩

/-- A frame that repeats the reference is ignored (R2). -/
theorem takeFrame_repeated {b r : Byte} {rest : List Byte} {p : Part} (started : p.started = true)
    (ten : (b :: rest).length = 10) (reference : p.intake.reference = some r) (gap : (b - r - 1).toNat = 255) :
    takeFrame (b :: rest) p = p := by
  obtain ⟨f, read, seq⟩ := readFrame_cons ten
  rw [takeFrame, if_pos started, read]
  simp only [checkFrame, frameGap, reference, seq, gap, if_true]

/-- A frame of a wrong length costs one count (R1). -/
theorem takeFrame_length {bytes : List Byte} {p : Part} (started : p.started = true) (h : bytes.length ≠ 10) :
    takeFrame bytes p = addLoss 1 p := by
  rw [takeFrame, if_pos started, readFrame_eq_none h]

/-- A frame out of order costs one count (R2). -/
theorem takeFrame_out_of_order {b r : Byte} {rest : List Byte} {p : Part} (started : p.started = true)
    (ten : (b :: rest).length = 10) (reference : p.intake.reference = some r) (h1 : 128 ≤ (b - r - 1).toNat)
    (h2 : (b - r - 1).toNat < 255) : takeFrame (b :: rest) p = addLoss 1 p := by
  obtain ⟨f, read, seq⟩ := readFrame_cons ten
  rw [takeFrame, if_pos started, read]
  simp only [checkFrame, frameGap, reference, seq, h2.ne, h1, if_true, if_false]

/-! ## The loss counter (R11, R12, R14) -/

/-- Counts that do not lose the measurement move the counter alone. -/
theorem addLoss_of_counted {n : Nat} {p : Part} (h : p.intake.loss + n < 32 ∨ p.intake.state = .lost) :
    addLoss n p = { p with intake := { p.intake with loss := min (p.intake.loss + n) 32 } } := by
  have stays : ¬(min (p.intake.loss + n) 32 = 32 ∧ p.intake.state = .good) := by
    rintro ⟨full, good⟩
    rcases h with h | h
    · omega
    · rw [h] at good
      contradiction
  unfold addLoss
  exact if_neg (by simpa [counterFull] using stays)

/-- The count that loses the measurement (R12). -/
theorem addLoss_of_full {n : Nat} {p : Part} (good : p.intake.state = .good) (h : 32 ≤ p.intake.loss + n) :
    addLoss n p = enterLost { p with intake := { p.intake with loss := 32 } } := by
  have full : min (p.intake.loss + n) counterFull = 32 := by
    unfold counterFull
    omega
  unfold addLoss
  simp only [full]
  exact if_pos (by simp [counterFull, good])

theorem enterLost_intake (p : Part) : (enterLost p).intake = { p.intake with state := .lost } := by
  simp [enterLost]

/-- The intake after counts (R11, R12). -/
theorem addLoss_intake (n : Nat) (p : Part) :
    (addLoss n p).intake =
      { p.intake with
        loss := min (p.intake.loss + n) 32
        state := if min (p.intake.loss + n) 32 = 32 then .lost else p.intake.state } := by
  by_cases good : p.intake.state = .good
  · by_cases full : 32 ≤ p.intake.loss + n
    · rw [addLoss_of_full good full, enterLost_intake, Nat.min_eq_right full, if_pos rfl]
    · rw [addLoss_of_counted (.inl (by omega)), if_neg (by omega)]
  · have lost : p.intake.state = .lost := by
      cases h : p.intake.state
      · exact absurd h good
      · rfl
    rw [addLoss_of_counted (.inr lost)]
    simp [lost]

/-- MEASURE as it joins the list, handed to the Sequencer first (R85, R67). -/
theorem placeMeasure_of_absent {p : Part} (h : p.hasBlock .measure = false) :
    placeMeasure p = joinPart .measure (seqBlockPlaced .measure p) := by
  unfold placeMeasure
  rw [if_neg (by simp [h])]

/-- A placement other than MECHANISM's does nothing to a Sequencer that does not wait for a reclose (R67). -/
theorem seqBlockPlaced_of_not_reclosing {k : BlockKind} {p : Part} (other : k ≠ .mechanism) (deadTime : p.seq.state ≠ .deadTime)
    (closeWait : p.seq.state ≠ .closeWait) : seqBlockPlaced k p = p := by
  unfold seqBlockPlaced
  split
  · contradiction
  · contradiction
  · exact if_neg other
  · rfl

/-- A lost measurement asks for no trip with the breaker not CLOSED, or under G0 or G1 (R13). -/
theorem askLossTrip_of_none {p : Part}
    (h : p.posture.active = .group .g0 ∨ p.posture.active = .group .g1 ∨ p.position ≠ .closed) : askLossTrip p = p := by
  unfold askLossTrip
  rcases h with h | h | h
  · simp [h, Active.asksTrip]
  · simp [h, Active.asksTrip]
  · simp [h]

/-- A lost measurement asks the Sequencer for a trip (R13). -/
theorem askLossTrip_of_asked {p : Part} (g0 : p.posture.active ≠ .group .g0) (g1 : p.posture.active ≠ .group .g1)
    (closed : p.position = .closed) : askLossTrip p = seqMeasureLoss p := by
  have asks : p.posture.active.asksTrip = true := by
    unfold Active.asksTrip
    split
    iterate 2 contradiction
    all_goals rfl
  unfold askLossTrip
  rw [if_pos (by simp [asks, closed])]

theorem seqMeasureLoss_of_service {p : Part} (h : p.seq.state = .closed ∨ p.seq.state = .reclaim) :
    seqMeasureLoss p = (seqTrip measureLossTrip (some .measureLoss) p).1 := by
  rcases h with h | h <;> simp only [seqMeasureLoss, h]

theorem askLossTrip_of_held {p : Part} (h : p.seq.state = .huntHeld) : askLossTrip p = p := by
  have none : seqMeasureLoss p = p := by simp only [seqMeasureLoss, h]
  unfold askLossTrip
  rw [none, ite_self]

/-- The part that is asked for a trip as the measurement is lost: MEASURE in the list, MEASURE_LOSS raised (R12). -/
def Part.measureLost (p : Part) : Part := raise .measureLoss (placeMeasure { p with intake := { p.intake with state := .lost } })

theorem enterLost_eq (p : Part) : enterLost p = abandonIfRunning .measureLost none measureLossCall (askLossTrip p.measureLost) :=
  rfl

theorem RaisedSince.joinPart {p q : Part} {l : List NoticeKind} (h : RaisedSince p q l) (k : BlockKind) :
    RaisedSince p (joinPart k q) (.blocks :: l) :=
  RaisedSince.raise (q := { q with entries := q.entries ++ [⟨k, .part, 0, q.uptime, none, none, none⟩] })
    (h.congr rfl) (by simp)

theorem RaisedSince.refl (p : Part) : RaisedSince p p [] := ⟨fun _ hk => absurd hk (by simp), fun _ _ => id⟩

/-- What the loss itself leaves as it was, before a trip is asked for. -/
@[simp] theorem measureLost_frame (p : Part) :
    p.measureLost.started = p.started ∧ p.measureLost.clock = p.clock ∧ p.measureLost.elements = p.elements ∧
      p.measureLost.mech = p.mech ∧ p.measureLost.posture = p.posture ∧ p.measureLost.table = p.table ∧
      p.measureLost.hunt = p.hunt ∧ p.measureLost.records = p.records ∧ p.measureLost.links = p.links ∧
      p.measureLost.store = p.store ∧ p.measureLost.intake = { p.intake with state := .lost } := by
  simp [Part.measureLost]

/-- What the loss itself does: MEASURE in the list, the notices, and the end of a waiting reclose (R12, R67). -/
theorem measureLost_spec {p : Part} (h : p.hasBlock .measure = false) :
    p.measureLost.entries = p.entries ++ [⟨.measure, .part, 0, p.uptime, none, none, none⟩] ∧
      RaisedSince p p.measureLost [.measureLoss, .blocks] ∧
      (p.seq.state ≠ .deadTime → p.seq.state ≠ .closeWait → p.measureLost.seq = p.seq) ∧
      (p.seq.state = .deadTime ∨ p.seq.state = .closeWait →
        p.measureLost.seq = p.seq.lockedOut .blocked ∧ ∀ m : Master, p.measureLost.pendingFor m .lockout = true) := by
  have placed : p.measureLost = raise .measureLoss (joinPart .measure (seqBlockPlaced .measure
      { p with intake := { p.intake with state := .lost } })) := by
    unfold Part.measureLost
    rw [placeMeasure_of_absent (by exact h)]
  by_cases waiting : p.seq.state = .deadTime ∨ p.seq.state = .closeWait
  · rw [seqBlockPlaced_of_waiting _ (by exact waiting)] at placed
    have locked := enterLockout_raised .blocked { p with intake := { p.intake with state := .lost } }
    rw [placed]
    have raised : RaisedSince p (enterLockout .blocked { p with intake := { p.intake with state := .lost } }) [.lockout] :=
      locked.mono fun _ _ => id
    refine ⟨rfl, ((raised.joinPart .measure).raise (by simp)).sub (by simp),
      fun h1 h2 => absurd waiting (by simp [h1, h2]), fun _ => ⟨rfl, fun m => ?_⟩⟩
    exact raise_kept _ _ m _ (raise_kept _ _ m _ (locked.1 _ (by simp) m))
  · rw [not_or] at waiting
    rw [seqBlockPlaced_of_not_reclosing (by simp) (by exact waiting.1) (by exact waiting.2)] at placed
    rw [placed]
    have raised : RaisedSince p { p with intake := { p.intake with state := .lost } } [] := (RaisedSince.refl p).congr rfl
    exact ⟨rfl, (raised.joinPart .measure).raise (by simp), fun _ _ => rfl,
      fun h => absurd h (by simp [waiting.1, waiting.2])⟩

/-- The Sequencer's trip for a lost measurement, with the breaker CLOSED in service (R13, R57, R55). -/
theorem askLossTrip_placed {p : Part} (g0 : p.posture.active ≠ .group .g0) (g1 : p.posture.active ≠ .group .g1)
    (closed : p.position = .closed) (order : p.mech.order = .none)
    (service : p.seq.state = .closed ∨ p.seq.state = .reclaim) :
    askLossTrip p =
        { p.seqTripPlaced measureLossTrip (some .measureLoss) with notices := (askLossTrip p).notices } ∧
      RaisedSince p (askLossTrip p) [.trip, .record] := by
  have asked := (askLossTrip_of_asked g0 g1 closed).trans (seqMeasureLoss_of_service service)
  obtain ⟨placed, raised⟩ := seqTrip_placed measureLossTrip (some .measureLoss) (p := p) (by simp [closed]) (.inl order)
  rw [asked]
  exact ⟨congrArg Prod.fst placed, raised⟩

/-- A frame that costs one count (R1, R2). -/
theorem exec_measurementFrame {bytes : List Byte} {s : State} {q : Part} (h : takeFrame bytes s.toPart = q) :
    exec (.measurementFrame bytes) s = .next (s.withPart q) := by
  rw [← h]
  rfl

/-- Settles O22: the count of a bad frame, then what its loss of the measurement does, by the trip it asks for and by the
hunt. -/
theorem badFrameDiscarded : Obligations.BadFrameDiscarded := by
  intro bytes s started repeated bad counted
  have costs : bad → takeFrame bytes s.toPart = addLoss 1 s.toPart := by
    intro h
    by_cases ten : bytes.length = 10
    · obtain ⟨b, r, rest, rfl, reference, h1, h2⟩ := h.resolve_left (not_not.mpr ten)
      exact takeFrame_out_of_order started ten reference h1 h2
    · exact takeFrame_length started ten
  have loses : bad → s.intake.state = .good → 32 ≤ s.intake.loss + 1 →
      exec (.measurementFrame bytes) s = .next (s.withPart (enterLost { s.toPart with intake := counted 32 })) :=
    fun h good full => exec_measurementFrame ((costs h).trans (addLoss_of_full good full))
  refine ⟨?_, fun h few => ?_, fun h good full block running => ?_, fun h good full block hunted => ?_⟩
  · rintro ⟨ten, b, r, rest, rfl, reference, gap⟩
    exact exec_measurementFrame (takeFrame_repeated started ten reference gap)
  · exact exec_measurementFrame ((costs h).trans (addLoss_of_counted (by
      rcases few with few | lost
      · exact .inl few
      · exact .inr lost)))
  · obtain ⟨joined, raised, idle, waiting⟩ := measureLost_spec (p := { s.toPart with intake := counted 32 }) block
    obtain ⟨-, clock, elements, mech, posture, table, hunt, records, links, store, intake⟩ :=
      measureLost_frame { s.toPart with intake := counted 32 }
    have taken := loses h good full
    rw [enterLost_eq] at taken
    generalize Part.measureLost { s.toPart with intake := counted 32 } = q at *
    have position : q.position = s.toPart.position := congrArg Mechanism.position mech
    obtain ⟨intake', entries', posture', table', hunt', links', store', clock', kept⟩ := askLossTrip_kept q
    have notRunning : (askLossTrip q).hunt.state.running = false := by
      rw [hunt', hunt]
      exact running
    rw [abandonIfRunning, if_neg (by simp [notRunning])] at taken
    refine ⟨_, taken, intake'.trans intake, entries'.trans joined,
      fun m => ⟨kept m _ (raised.1 _ (by simp) m), kept m _ (raised.1 _ (by simp) m)⟩, posture'.trans posture,
      table'.trans table, hunt'.trans hunt, links'.trans links, store'.trans store, clock'.trans clock,
      fun noTrip => ?_, fun g0 g1 closed order service => ?_⟩
    · rw [← posture, ← position] at noTrip
      rw [askLossTrip_of_none noTrip]
      refine ⟨mech, elements, records, idle, fun waits => ?_⟩
      obtain ⟨seq, lockout⟩ := waiting waits
      exact ⟨congrArg Sequencer.state seq, congrArg Sequencer.lockoutReason seq, lockout⟩
    · have seq : q.seq = s.seq := idle
        (by rcases service with h | h <;> exact fun h' => absurd (h.symm.trans h') (by simp))
        (by rcases service with h | h <;> exact fun h' => absurd (h.symm.trans h') (by simp))
      obtain ⟨placed, tripRaised⟩ := askLossTrip_placed (p := q) (by rwa [posture]) (by rwa [posture]) (by rwa [position])
        (by rwa [mech]) (by rwa [seq])
      have notFailed : s.seq.state ≠ .failed := by
        rcases service with h | h <;> simp [h]
      have movedMech : (askLossTrip q).mech = (q.seqTripPlaced measureLossTrip (some .measureLoss)).mech := by
        rw [placed]
      have movedSeq : (askLossTrip q).seq = (q.seqTripPlaced measureLossTrip (some .measureLoss)).seq := by
        rw [placed]
      have movedElements : (askLossTrip q).elements = (q.seqTripPlaced measureLossTrip (some .measureLoss)).elements := by
        rw [placed]
      have movedRecords : (askLossTrip q).records = (q.seqTripPlaced measureLossTrip (some .measureLoss)).records := by
        rw [placed]
      refine ⟨movedMech.trans ?_, movedSeq.trans ?_, movedElements.trans ?_,
        ⟨q.newRecord (measureLossTrip.fields q.seq.shotsUsed), (congrArg Records.ring movedRecords).trans ?_, ?_, rfl, rfl, rfl,
          ?_, rfl⟩, (congrArg Records.pendingRecord movedRecords).trans ?_,
        fun m => ⟨tripRaised.1 _ (by simp) m, tripRaised.1 _ (by simp) m⟩⟩
      · simp [Part.seqTripPlaced, mech, clock, order]
      · simp [Part.seqTripPlaced, mech, seq, order, notFailed]
        rfl
      · simp [Part.seqTripPlaced, mech, elements, order]
      · simp [Part.seqTripPlaced, records]
      · exact congrArg Records.next records
      · exact congrArg Sequencer.shotsUsed seq
      · exact congrArg (some ∘ Records.next) records
  · refine ⟨_, loses h good full, ?_⟩
    have lost : Part.measureLost { s.toPart with intake := counted 32 } = raise .measureLoss (raise .blocks { s.toPart with
        intake := { counted 32 with state := .lost }
        entries := s.entries ++ [⟨.measure, .part, 0, s.toPart.uptime, none, none, none⟩] }) := by
      unfold Part.measureLost
      rw [placeMeasure_of_absent (by exact block), seqBlockPlaced_of_not_reclosing (by simp)
        (by exact fun h' => absurd (hunted.held.symm.trans h') (by simp))
        (by exact fun h' => absurd (hunted.held.symm.trans h') (by simp))]
      rfl
    rw [enterLost_eq, lost, askLossTrip_of_held (by exact hunted.held), abandonIfRunning,
      if_pos (by exact hunted.running)]
    exact abandon_spec none _ none (by simp) hunted.sound hunted.own

/-! ## Channels, source-live and the step, as the intake holds them (R5, R6, R10) -/

theorem Channel.miss_cls (c : Channel) : c.miss.cls = some .absent := by
  unfold Channel.miss
  (repeat' split) <;> rfl

theorem Channel.miss_isClipped (c : Channel) : c.miss.isClipped = false := by
  simp [Channel.isClipped, Channel.miss_cls]

/-- A channel's step by its own reading (R5, R6). -/
theorem Channel.step_reading (c : Channel) (r : Reading) :
    c.step (some r) =
      if r.valid = false then c.miss
      else if r.magnitude = 65535 then ⟨some .clipped, c.held, 0, true, some 65534⟩
      else if r.magnitude < 20 then ⟨some .zero, some 0, 0, true, some 0⟩
      else ⟨some .normal, some r.magnitude, 0, true, some r.magnitude⟩ := by
  cases valid : r.valid
  · simp [Channel.step, classOf, valid]
  · by_cases full : r.magnitude = 65535
    · simp [Channel.step, classOf, valid, full, Channel.clip]
    · by_cases small : r.magnitude < 20
      · simp [Channel.step, classOf, valid, full, small, Channel.measured]
      · simp [Channel.step, classOf, valid, full, small, Channel.measured]

theorem Channel.step_isAbsent (c : Channel) (r : Reading) : (c.step (some r)).isAbsent = !r.valid := by
  rw [Channel.step_reading]
  cases r.valid
  · simp [Channel.isAbsent, Channel.miss_cls]
  · simp only [Channel.isAbsent, Bool.true_eq_false, if_false]
    split_ifs <;> rfl

theorem Channel.step_isClipped (c : Channel) (r : Reading) :
    (c.step (some r)).isClipped = (r.valid && decide (r.magnitude = 65535)) := by
  rw [Channel.step_reading]
  cases r.valid
  · simp [Channel.miss_isClipped]
  · simp only [Channel.isClipped, Bool.true_eq_false, if_false, Bool.true_and]
    split_ifs with full <;> simp [full]

theorem setSource_intake (live : Bool) (hold : Nat) (p : Part) :
    (setSource live hold p).intake = { p.intake with sourceLive := live, liveHold := hold } := by
  unfold setSource
  dsimp only
  split <;> simp

/-- Source-live held for two missing-frame steps, and then DEAD (R10). -/
theorem missSource_intake (p : Part) :
    (missSource p).intake =
      { p.intake with
        sourceLive := if p.intake.liveHold < 2 then p.intake.sourceLive else false
        liveHold := if p.intake.liveHold < 2 then p.intake.liveHold + 1 else 2 } := by
  unfold missSource
  split <;> rw [setSource_intake]

/-- Of the intake a step of Elements writes the ABSENT_SEEN flags alone (R8). -/
theorem elementsStep_intake (p : Part) :
    (elementsStep p).intake = { p.intake with absentSeen := (elementsStep p).intake.absentSeen } := by
  unfold elementsStep
  dsimp only
  split
  · simp [runningStep, elementsRun]
  · simp

theorem enterGood_intake (p : Part) : (enterGood p).intake = { p.intake with state := .good } := by
  simp [enterGood]

theorem dropLoss_intake (p : Part) :
    (dropLoss p).intake =
      { p.intake with
        loss := p.intake.loss - 1, state := if p.intake.loss - 1 = 0 then .good else p.intake.state } := by
  unfold dropLoss
  dsimp only
  split
  next h =>
    simp only [Bool.and_eq_true, decide_eq_true_eq] at h
    rw [enterGood_intake, if_pos h.1]
  next h =>
    simp only [Bool.and_eq_true, decide_eq_true_eq, not_and] at h
    split
    next zero =>
      have good : p.intake.state = .good := by
        cases hs : p.intake.state
        · rfl
        · exact absurd hs (h zero)
      simp [good]
    next => rfl

/-! ## A missing-frame step (R4) -/

theorem missingStep_intake (p : Part) :
    (missingStep p).intake =
      { p.intake with
        lastKind := some .missing, channels := Quad.map Channel.miss p.intake.channels
        absentSeen := (missingStep p).intake.absentSeen } := by
  unfold missingStep
  rw [elementsStep_intake]
  simp [stepChannels, Quad.map, Quad.zip, Channel.step, Channel.miss_isClipped]

/-- With no close of the Hunt's waiting, the source of a missing-frame step is only read (R10). -/
theorem missSource_of_no_wait {p : Part} (h : p.hunt.closeWaitTimer = none) :
    missSource p = { p with intake := (missSource p).intake } := by
  rw [missSource_intake]
  unfold missSource setSource
  split
  · rw [if_pos rfl]
  · dsimp only
    split
    · rfl
    · rw [seqConditionsChanged_of_not (.inr (by simp [Part.recloseConditions])), huntConditionsChanged_of_not (.inl (by exact h))]

/-- A running step with a trip order in progress is neither handed to the Hunt nor routed (R37, R139). -/
theorem runningStep_of_trip {p : Part} (trip : p.mech.order = .trip) :
    runningStep p = { p with elements := (runningStep p).elements, intake := (runningStep p).intake } := by
  have handed : ∀ (mode : Mode) (n : Channel), handStep mode n (elementsRun p) = elementsRun p := by
    intro mode n
    cases mode <;> simp [handStep, huntStep, Part.settling, trip]
  have routed : ∀ (mode : Mode) (d : Decision), routeDecision mode d (elementsRun p) = elementsRun p := by
    intro mode d
    simp only [routeDecision, elementsRun_frame, trip, decide_true, Bool.or_true, if_true]
  have ended : ∀ (mode : Mode) (x : Part), countWindows mode x = { x with elements := (countWindows mode x).elements } := by
    intro mode x
    cases mode <;> rfl
  rw [runningStep, handed, routed, ended]
  rfl

/-- A step with the breaker OPEN or with a trip order in progress leaves all but the elements and the flags of the intake
(R17, R37, R139). -/
theorem elementsStep_of_tripped {p : Part} (h : p.position = .opened ∨ p.mech.order = .trip) :
    elementsStep p = { p with elements := (elementsStep p).elements, intake := (elementsStep p).intake } := by
  have counted : countOpen p = { p with elements := (countOpen p).elements } := by
    unfold countOpen
    split <;> rfl
  have stepped : elementsStep p = if (countOpen p).runs then runningStep (countOpen p) else countOpen p := rfl
  by_cases runs : (countOpen p).runs = true
  · have notOpen : p.position ≠ .opened := by
      intro opened
      have same : (countOpen p).position = .opened := (countOpen_position p).trans opened
      simp [Part.runs, same] at runs
    have trip : (countOpen p).mech.order = .trip := by simpa using h.resolve_left notOpen
    rw [stepped, if_pos runs, runningStep_of_trip trip]
    simp
  · rw [stepped, if_neg runs]
    simpa using counted

/-- After an abandonment no close of the Hunt's waits, and the breaker is OPEN or being tripped (R146). -/
theorem HuntAbandoned.settled {reason : HuntReason} {detail : Option HuntDetail} {causes : Causes}
    {requester : Option Master} {p q : Part} (h : HuntAbandoned reason detail causes requester p q) :
    q.hunt.closeWaitTimer = none ∧ (q.position = .opened ∨ q.mech.order = .trip) := by
  by_cases opened : p.position = .opened
  · by_cases close : p.mech.order = .close
    · obtain ⟨left, -, -⟩ := h.pulled opened close
      rw [left]
      exact ⟨rfl, .inl opened⟩
    · obtain ⟨left, -⟩ := h.handedBack opened close
      rw [left]
      exact ⟨rfl, .inl opened⟩
  · by_cases trip : p.mech.order = .trip
    · obtain ⟨left, -⟩ := h.waits opened trip
      rw [left]
      exact ⟨rfl, .inr trip⟩
    · obtain ⟨left, -⟩ := h.tripped opened trip
      rw [left]
      exact ⟨rfl, .inr rfl⟩

/-- MEASURE lost while the breaker is lent: the loss, then the abandonment (R12, R145). -/
theorem enterLost_of_held {p : Part} (hunted : p.heldByHunt) (block : p.hasBlock .measure = false) :
    HuntAbandoned .measureLost none { measureLoss := true } none
      (raise .measureLoss (raise .blocks
        { p with
          intake := { p.intake with state := .lost }
          entries := p.entries ++ [⟨.measure, .part, 0, p.uptime, none, none, none⟩] })) (enterLost p) := by
  have lost : p.measureLost = raise .measureLoss (raise .blocks
      { p with
        intake := { p.intake with state := .lost }
        entries := p.entries ++ [⟨.measure, .part, 0, p.uptime, none, none, none⟩] }) := by
    unfold Part.measureLost
    rw [placeMeasure_of_absent (by exact block), seqBlockPlaced_of_not_reclosing (by simp)
      (by exact fun h' => absurd (hunted.held.symm.trans h') (by simp))
      (by exact fun h' => absurd (hunted.held.symm.trans h') (by simp))]
    rfl
  rw [enterLost_eq, lost, askLossTrip_of_held (by exact hunted.held), abandonIfRunning, if_pos (by exact hunted.running)]
  exact abandon_spec none _ none (by simp) hunted.sound hunted.own

/-- Settles O24: the intake's own fields by the lemmas on each part of the step, and the hunt that the loss abandons. -/
theorem missingFrameStepped : Obligations.MissingFrameStepped := by
  intro e s timer kept ch
  have taken : exec .missingFrameStep s = .next (s.withPart (frameDueEnded (s.toPart.reach e))) := by
    change Host.Outcome.next (s.withPart (expired s.intake.frameDue frameDueEnded s.toPart)) = _
    rw [expired_some timer]
  have counted := addLoss_intake 1
    { s.toPart.reach e with intake := { s.intake with reference := s.intake.reference.map (· + 1) } }
  have lost : s.intake.state = .good → 32 ≤ s.intake.loss + 1 → s.toPart.hasBlock .measure = false → s.toPart.heldByHunt →
      HuntAbandoned .measureLost none { measureLoss := true } none
        (raise .measureLoss (raise .blocks { s.toPart with
          clock := max s.clock e
          intake := { s.intake with reference := s.intake.reference.map (· + 1), loss := 32, state := .lost }
          entries := s.entries ++
            [⟨.measure, .part, 0, Part.uptime { s.toPart with clock := max s.clock e }, none, none, none⟩] }))
        (addLoss 1 { s.toPart.reach e with intake := { s.intake with reference := s.intake.reference.map (· + 1) } }) := by
    intro good full block hunted
    have hunted' : Part.heldByHunt { s.toPart.reach e with
        intake := { s.intake with reference := s.intake.reference.map (· + 1), loss := 32 } } :=
      ⟨hunted.running, hunted.held, hunted.sound, hunted.own⟩
    rw [addLoss_of_full (by exact good) (by exact full)]
    exact enterLost_of_held hunted' block
  obtain ⟨-, -, clock, posture, -, links, store⟩ := addLoss_frame 1
    { s.toPart.reach e with intake := { s.intake with reference := s.intake.reference.map (· + 1) } }
  have ended : frameDueEnded (s.toPart.reach e) =
      (let r := missingStep (missSource (addLoss 1
        { s.toPart.reach e with intake := { s.intake with reference := s.intake.reference.map (· + 1) } }))
      { r with intake := { r.intake with frameDue := r.timer 10 } }) := rfl
  rw [ended] at taken
  generalize addLoss 1 { s.toPart.reach e with intake := { s.intake with reference := s.intake.reference.map (· + 1) } } = q
    at *
  have live := missSource_intake q
  obtain ⟨flags, stepped⟩ : ∃ flags : Quad Bool, (missingStep (missSource q)).intake =
      { (missSource q).intake with
        lastKind := some .missing, channels := Quad.map Channel.miss (missSource q).intake.channels, absentSeen := flags } :=
    ⟨_, missingStep_intake (missSource q)⟩
  rw [live, counted] at stepped
  refine ⟨_, taken, ?_, ?_, ?_, ?_, ?_, ?_, ?_, fun few => ?_, fun many => ?_, ?_, ?_, ?_, ?_, ?_,
    fun good full block hunted => ⟨q, lost good full block hunted, ?_⟩⟩
  case refine_15 =>
    obtain ⟨noWait, tripped⟩ := (lost good full block hunted).settled
    have sourced := missSource_of_no_wait noWait
    have quiet := elementsStep_of_tripped (p := stepChannels .missing
      (Quad.map (fun c => c.step none) (missSource q).intake.channels) (missSource q)) (by
        rw [sourced]
        exact tripped)
    have left : missingStep (missSource q) = _ := quiet
    rw [left, sourced]
    exact ⟨rfl, rfl, rfl, rfl, rfl, rfl⟩
  case refine_8 => simp [State.withPart, stepped, few]
  case refine_9 => simp [State.withPart, stepped, not_lt.mpr many]
  all_goals simp [State.withPart, stepped, clock, posture, links, store, Part.timer, Part.reach]
  rfl

/-! ## An accepted frame (R3) -/

/-- Whether a step's channels are ABSENT somewhere, by the valid flags of its readings. -/
theorem anyLane_isAbsent (ch : Quad Channel) (r : Quad Reading) :
    anyLane (Quad.map Channel.isAbsent (Quad.zip (fun c x => c.step (some x)) ch r)) =
      !(r.a.valid && r.b.valid && r.c.valid && r.n.valid) := by
  simp [anyLane, Quad.map, Quad.zip, Channel.step_isAbsent]

theorem anyLane_isClipped (ch : Quad Channel) (r : Quad Reading) :
    anyLane (Quad.map Channel.isClipped (Quad.zip (fun c x => c.step (some x)) ch r)) =
      ((r.a.valid && decide (r.a.magnitude = 65535)) || (r.b.valid && decide (r.b.magnitude = 65535)) ||
        (r.c.valid && decide (r.c.magnitude = 65535)) || (r.n.valid && decide (r.n.magnitude = 65535))) := by
  simp [anyLane, Quad.map, Quad.zip, Channel.step_isClipped]

/-- The count of a frame step (R11), as the intake holds it. -/
theorem countFrame_intake (p : Part) :
    (countFrame p).intake =
      if anyLane (Quad.map Channel.isAbsent p.intake.channels) then
        { p.intake with
          loss := min (p.intake.loss + 1) 32
          state := if min (p.intake.loss + 1) 32 = 32 then .lost else p.intake.state }
      else if anyLane (Quad.map Channel.isClipped p.intake.channels) then p.intake
      else
        { p.intake with
          loss := p.intake.loss - 1, state := if p.intake.loss - 1 = 0 then .good else p.intake.state } := by
  unfold countFrame
  split
  · exact addLoss_intake 1 p
  · split
    · rfl
    · exact dropLoss_intake p

theorem dropLoss_of_good {p : Part} (good : p.intake.state = .good) :
    dropLoss p = { p with intake := { p.intake with loss := p.intake.loss - 1 } } := by
  unfold dropLoss
  exact if_neg (by simp [good])

/-- The count that brings the measurement back (R14). -/
theorem dropLoss_of_last {p : Part} (lost : p.intake.state = .lost) (last : p.intake.loss = 1) :
    dropLoss p = enterGood { p with intake := { p.intake with loss := 0 } } := by
  unfold dropLoss
  simp only [last]
  exact if_pos (by simp [lost])

/-- A frame in sequence counts nothing before its step. -/
theorem addLoss_zero {p : Part} (h : p.intake.loss < 32) : addLoss 0 p = p := by
  rw [addLoss_of_counted (.inl h), Nat.add_zero, Nat.min_eq_left h.le]

/-- Source-live unchanged, or changed with nobody waiting on it, is only read (R10). -/
theorem setSource_of_unwaited {live : Bool} {hold : Nat} {p : Part}
    (h : live = p.intake.sourceLive ∨ ((live = false ∨ p.seq.state ≠ .closeWait) ∧ p.hunt.closeWaitTimer = none)) :
    setSource live hold p = { p with intake := { p.intake with sourceLive := live, liveHold := hold } } := by
  unfold setSource
  dsimp only
  split
  · rfl
  next changes =>
    obtain ⟨idle, noWait⟩ := h.resolve_left changes
    have seqIdle : Part.recloseConditions { p with intake := { p.intake with sourceLive := live, liveHold := hold } } = false ∨
        p.seq.state ≠ .closeWait := by
      rcases idle with dead | idle
      · exact .inl (by simp [Part.recloseConditions, dead])
      · exact .inr idle
    rw [seqConditionsChanged_of_not (by exact seqIdle.symm), huntConditionsChanged_of_not (.inl (by exact noWait))]

/-- A source-live that turns is handed to the Sequencer and then to the Hunt (R10). -/
theorem setSource_of_changed {live : Bool} {hold : Nat} {p : Part} (h : live ≠ p.intake.sourceLive) :
    setSource live hold p =
      huntConditionsChanged (seqConditionsChanged
        { p with intake := { p.intake with sourceLive := live, liveHold := hold } }) := if_neg h

/-- A frame of ten bytes within 128 of the reference is accepted (R2). -/
theorem takeFrame_accepted {bytes : List Byte} {f : FrameRecord} {p : Part} (started : p.started = true)
    (read : readFrame bytes = some f) (h : frameGap p.intake.reference f.seq < 128) :
    takeFrame bytes p = acceptFrame (frameGap p.intake.reference f.seq) f p := by
  rw [takeFrame, if_pos started, read]
  unfold checkFrame
  dsimp only
  rw [if_neg (by omega), if_neg (not_le.mpr h)]

/-- The intake after an accepted frame: the counts of the numbers skipped, the frame, its channels, its own count. -/
theorem acceptFrame_intake (g : Nat) (f : FrameRecord) (p : Part) :
    let counted := min (p.intake.loss + min g 32) 32
    let moved : MeasureState := if counted = 32 then .lost else p.intake.state
    let channels := Quad.zip (fun c x => c.step (some x)) p.intake.channels f.readings
    let absent := anyLane (Quad.map Channel.isAbsent channels)
    let clipped := anyLane (Quad.map Channel.isClipped channels)
    (acceptFrame g f p).intake =
      { p.intake with
        reference := some f.seq, latest := some f, frameDue := some (p.clock + 15), lastKind := some .frame
        sourceLive := f.live, liveHold := 0, channels := channels
        clippedSeen := Quad.zip (fun c b => b || c.isClipped) channels p.intake.clippedSeen
        loss := if absent then min (counted + 1) 32 else if clipped then counted else counted - 1
        state :=
          if absent then (if min (counted + 1) 32 = 32 then .lost else moved)
          else if clipped then moved
          else if counted - 1 = 0 then .good else moved
        absentSeen := (acceptFrame g f p).intake.absentSeen } := by
  intro counted moved channels absent clipped
  unfold acceptFrame frameStep
  dsimp only
  rw [elementsStep_intake, countFrame_intake]
  simp only [stepChannels, setSource_intake, addLoss_intake, addLoss_frame, Part.timer, counted, moved, absent, clipped,
    channels]
  split_ifs <;> rfl

/-- The part that Elements step after a frame in sequence with every channel valid (R3, R11). -/
theorem acceptFrame_in_sequence {f : FrameRecord} {p q : Part} (few : p.intake.loss < 32)
    (source : setSource f.live 0
      { p with intake := { p.intake with reference := some f.seq, latest := some f, frameDue := some (p.clock + 15) } } = q)
    (kept : q.intake.channels = p.intake.channels)
    (valid : (f.readings.a.valid && f.readings.b.valid && f.readings.c.valid && f.readings.n.valid) = true) :
    let channels := Quad.zip (fun c x => c.step (some x)) p.intake.channels f.readings
    acceptFrame 0 f p =
      elementsStep
        (if anyLane (Quad.map Channel.isClipped channels) then stepChannels .frame channels q
        else dropLoss (stepChannels .frame channels q)) := by
  intro channels
  have present : anyLane (Quad.map Channel.isAbsent channels) = false := by
    rw [anyLane_isAbsent, valid]
    rfl
  have counted : countFrame (stepChannels .frame channels q) =
      if anyLane (Quad.map Channel.isClipped channels) then stepChannels .frame channels q
      else dropLoss (stepChannels .frame channels q) := by
    unfold countFrame
    rw [if_neg]
    · rfl
    · change ¬anyLane (Quad.map Channel.isAbsent channels) = true
      simp [present]
  have taken : acceptFrame 0 f p = frameStep f.readings q := by
    unfold acceptFrame
    rw [Nat.zero_min, addLoss_zero few, ← source]
    rfl
  rw [taken, frameStep, kept, ← counted]

/-- The intake back in GOOD, MEASURE out of the list (R14, R87). -/
theorem enterGood_eq (p : Part) :
    enterGood p =
      { p with
        intake := { p.intake with state := .good }, entries := p.entries.filter (fun e => e.kind ≠ .measure)
        notices := (enterGood p).notices } := by
  have removed : ∀ q : Part, removePart .measure q =
      { q with entries := q.entries.filter (fun e => e.kind ≠ .measure), notices := (removePart .measure q).notices } := by
    intro q
    rw [← removePart_entries]
    unfold removePart
    split
    · exact raise_eq .blocks _
    · rfl
  unfold enterGood
  rw [raise_eq .measureLoss, removed]

/-- Settles O23: the intake by `acceptFrame_intake`, then the part that Elements step, by what the source does first. -/
theorem frameAccepted : Obligations.FrameAccepted := by
  intro b0 b1 b2 b3 b4 b5 b6 b7 b8 b9 s started c readings kept channel channels full absent clipped skipped counted loss moved
    state intake stepped
  obtain ⟨f, hf⟩ : ∃ f : FrameRecord, f = ⟨b0, b1.getLsbD 0, readings⟩ := ⟨_, rfl⟩
  have gap : frameGap s.intake.reference f.seq = skipped := by
    rw [hf]
    change frameGap s.intake.reference b0 = _
    unfold frameGap
    cases h : s.intake.reference <;> simp [skipped, h]
  have channel_eq : ∀ (x : Channel) (r : Reading), channel x r = x.step (some r) := by
    intro x r
    rw [Channel.step_reading]
    rfl
  have channels_eq : channels = Quad.zip (fun c x => c.step (some x)) s.intake.channels f.readings := by
    simp only [channels, channel_eq, hf]
    rfl
  have absent_eq : anyLane (Quad.map Channel.isAbsent channels) = absent := by
    rw [channels_eq, anyLane_isAbsent, hf]
  have clipped_eq : anyLane (Quad.map Channel.isClipped channels) = clipped := by
    rw [channels_eq, anyLane_isClipped, hf]
  have taken : skipped < 128 → exec c s = .next (s.withPart (acceptFrame skipped f s.toPart)) := by
    intro h
    have read : readFrame [b0, b1, b2, b3, b4, b5, b6, b7, b8, b9] = some f := by
      rw [hf]
      rfl
    rw [← gap] at h ⊢
    exact exec_measurementFrame (takeFrame_accepted started read h)
  have isClipped : ∀ (x : Channel) (r : Reading), (channel x r).isClipped = full r := by
    intro x r
    rw [channel_eq, Channel.step_isClipped]
  have seen : Quad.zip (fun c b => b || c.isClipped) channels s.intake.clippedSeen = intake.clippedSeen := by
    simp only [Quad.zip, intake, channels, isClipped]
  have sequence : skipped = 0 → absent = false → s.intake.loss < 32 → ∀ q : Part, setSource f.live 0
      { s.toPart with
        intake := { s.intake with reference := some f.seq, latest := some f, frameDue := some (s.clock + 15) } } = q →
      q.intake.channels = s.intake.channels →
      exec c s = .next (s.withPart (elementsStep
        (if clipped then stepChannels .frame channels q else dropLoss (stepChannels .frame channels q)))) := by
    intro none present few q source same
    have valid : (f.readings.a.valid && f.readings.b.valid && f.readings.c.valid && f.readings.n.valid) = true := by
      rw [hf]
      simpa [absent] using present
    rw [taken (by omega), none, acceptFrame_in_sequence (p := s.toPart) few source same valid, ← channels_eq, clipped_eq]
  have good_step : ∀ q : Part, s.intake.state = .good →
      q.intake = { s.intake with
        reference := some f.seq, latest := some f, frameDue := some (s.clock + 15), sourceLive := f.live, liveHold := 0 } →
      (if clipped then stepChannels .frame channels q else dropLoss (stepChannels .frame channels q)) =
        { q with intake := stepped } := by
    intro q good same
    have chosen : stepChannels .frame channels q = { q with intake := { intake with
        sourceLive := b1.getLsbD 0, loss := s.intake.loss } } := by
      unfold stepChannels
      rw [same]
      dsimp only
      rw [seen, hf]
    by_cases hc : clipped = true
    · rw [if_pos hc, chosen]
      simp only [stepped, if_pos hc]
    · rw [if_neg hc, chosen, dropLoss_of_good (by exact good)]
      simp only [stepped, if_neg hc]
  refine ⟨fun near => ?_, fun none present source => ⟨fun good few => ?_, fun lost last unclipped => ?_⟩,
    fun none present good few dead live energy order opened =>
      ⟨fun k waits entries pending shots noWait => ?_, fun hunted waits due hotLine mechanism => ?_⟩⟩
  · obtain ⟨-, -, clock, posture, -, links, store⟩ := acceptFrame_frame skipped f s.toPart
    refine ⟨_, taken near, ?_, clock, links, store, posture⟩
    have accepted := acceptFrame_intake skipped f s.toPart
    dsimp only at accepted
    rw [← channels_eq, absent_eq, clipped_eq, seen] at accepted
    have state_eq : (if absent then (if min (counted + 1) 32 = 32 then .lost else moved)
        else if clipped then moved else if counted - 1 = 0 then .good else moved) = state := by
      by_cases ha : absent = true
      · simp only [state, loss, if_pos ha]
      · by_cases hc : clipped = true
        · simp [state, loss, ha, hc]
        · simp [state, loss, ha, hc]
    refine accepted.trans ?_
    rw [hf]
    exact congrArg (fun st : MeasureState => { intake with
      sourceLive := b1.getLsbD 0, loss := loss, state := st
      absentSeen := (acceptFrame skipped ⟨b0, b1.getLsbD 0, readings⟩ s.toPart).intake.absentSeen }) state_eq
  · have source' : f.live = s.intake.sourceLive ∨
        ((f.live = false ∨ s.seq.state ≠ .closeWait) ∧ s.hunt.closeWaitTimer = Option.none) := by
      rw [hf]
      exact source
    rw [sequence none present few _ (setSource_of_unwaited (by exact source')) rfl, good_step _ good rfl]
  · have source' : f.live = s.intake.sourceLive ∨
        ((f.live = false ∨ s.seq.state ≠ .closeWait) ∧ s.hunt.closeWaitTimer = Option.none) := by
      rw [hf]
      exact source
    have taken' := sequence none present (by omega) _ (setSource_of_unwaited (by exact source')) rfl
    rw [unclipped, if_neg Bool.false_ne_true, dropLoss_of_last (by exact lost) (by exact last)] at taken'
    refine ⟨_, taken', ?_, fun m => raise_pending (by simp) _ m, fun listed m => ?_⟩
    · refine (enterGood_eq _).trans ?_
      dsimp only [stepChannels]
      rw [seen, hf]
    · exact raise_kept _ _ m _ (removePart_blocks (by exact listed) m)
  all_goals
    have turns : f.live ≠ s.intake.sourceLive := by
      rw [hf, dead]
      simp [live]
    have isLive : f.live = true := by rw [hf, live]
  · have source := setSource_of_changed (hold := 0) (p := { s.toPart with
      intake := { s.intake with reference := some f.seq, latest := some f, frameDue := some (s.clock + 15) } }) turns
    rw [seqConditionsChanged_accepted (by exact waits) (by exact entries) (by exact isLive) (by exact energy)
      (by exact pending) (by exact shots) (by exact order) (by exact opened),
      huntConditionsChanged_of_not (.inl (by exact noWait))] at source
    rw [sequence none present few _ source rfl, good_step _ good rfl]
  · have source := setSource_of_changed (hold := 0) (p := { s.toPart with
      intake := { s.intake with reference := some f.seq, latest := some f, frameDue := some (s.clock + 15) } }) turns
    rw [seqConditionsChanged_of_not (.inl (by exact fun h => absurd (hunted.held.symm.trans h) (by simp))),
      huntConditionsChanged_of_waiting (by exact waits)
        (closeConditions_iff.mpr ⟨by exact energy, fun _ => by exact isLive⟩)] at source
    have accepted := closeRefusal_none.1 (closeRefusal_eq_none_iff.mpr ⟨order, opened, energy, hotLine, mechanism⟩)
    have placed := placeDueClose_spec (p := { s.toPart with
      intake := { s.intake with
        reference := some f.seq, latest := some f, frameDue := some (s.clock + 15), sourceLive := f.live
        liveHold := 0 } }) due (by simp) hunted.sound hunted.own
    rw [placed.accepted accepted, if_pos rfl] at source
    rw [sequence none present few _ source rfl, good_step _ good rfl]
    rfl

end Sys2Proof.Machine
end IntakeFrames

/-! SUPPORT. The elements of a running step, and the trip that its decision places: O28. -/
section RunningSteps
namespace Sys2Proof.Machine

/-! ## The inverse-time elements (R22 to R24) -/

theorem bandOf_bounds {m64 : Nat} (h : 64 ≤ m64) : 1 ≤ bandOf m64 ∧ bandOf m64 ≤ 11 := by
  refine ⟨List.length_pos_of_mem (a := 64) (List.mem_filter.mpr ⟨by decide, by simpa using h⟩), ?_⟩
  exact (List.length_filter_le _ _).trans (by decide)

theorem curveTime_bounds : ∀ curve ∈ List.range' 1 4, ∀ band ∈ List.range' 1 11,
    200 ≤ curveTime curve band ∧ curveTime curve band ≤ 60000 := by decide

/-- The accrual of every curve, band and time multiplier (R23). -/
theorem accrual_bounds {curve tms m64 : Nat} (c1 : 1 ≤ curve) (c2 : curve ≤ 4) (t1 : 5 ≤ tms) (t2 : tms ≤ 150)
    (m1 : 64 ≤ m64) : 111 ≤ accrual curve tms m64 ∧ accrual curve tms m64 ≤ 1000000 := by
  obtain ⟨b1, b2⟩ := bandOf_bounds m1
  obtain ⟨low, high⟩ := curveTime_bounds curve (List.mem_range'_1.mpr ⟨c1, by omega⟩) (bandOf m64)
    (List.mem_range'_1.mpr ⟨b1, by omega⟩)
  have least : 1000 ≤ curveTime curve (bandOf m64) * tms := Nat.mul_le_mul low t1
  have most : curveTime curve (bandOf m64) * tms ≤ 9000000 := Nat.mul_le_mul high t2
  unfold accrual
  constructor
  · rw [Nat.le_div_iff_mul_le (by omega)]
    omega
  · exact (Nat.div_le_div_left least (by omega)).trans (by norm_num)

theorem stepAcc_of_unavailable {c : Channel} (h : c.available = false) (pickup : Nat) (curve : Nat × Nat) (acc : Nat) :
    stepAcc c pickup curve acc = acc := by
  simp [stepAcc, Channel.multiple, h]

theorem stepAcc_of_multiple {c : Channel} {pickup m64 : Nat} (h : c.multiple pickup = some m64) (curve : Nat × Nat)
    (acc : Nat) :
    stepAcc c pickup curve acc =
      if 64 ≤ m64 then min (acc + accrual curve.1 curve.2 m64) tripFull else acc - decayStep := by
  simp only [stepAcc, h]

/-! ## The high-set and SEF counts (R25, R26) -/

theorem atLeast_iff {c : Channel} {level : Nat} :
    c.atLeast level = true ↔ c.available = true ∧ (c.isClipped = true ∨ level ≤ c.value.getD 0) := by
  simp [Channel.atLeast]

theorem highsetTrips_iff {st : Settings} {c : Channel} {count : Nat} :
    highsetTrips st c count = true ↔ st.highsetLevel.getD 0 ≠ 0 ∧ c.atLeast (st.highsetLevel.getD 0) = true ∧
      max 1 (st.highsetDelay.getD 0 / 10) ≤ count := by
  unfold highsetTrips
  rw [Bool.and_eq_true, Bool.and_eq_true, decide_eq_true_iff, decide_eq_true_iff, and_assoc]
  rfl

theorem sefTrips_iff {st : Settings} {c : Channel} {count : Nat} :
    sefTrips st c count = true ↔ c.atLeast (st.sefPickup.getD 0 * 9 / 10) = true ∧ st.sefDelay.getD 0 / 10 ≤ count := by
  unfold sefTrips
  rw [Bool.and_eq_true, decide_eq_true_iff]
  rfl

/-- A channel at a level is at every lower one. -/
theorem atLeast_mono {c : Channel} {high low : Nat} (le : low ≤ high) (h : c.atLeast high = true) : c.atLeast low = true := by
  obtain ⟨available, reached⟩ := atLeast_iff.mp h
  exact atLeast_iff.mpr ⟨available, reached.imp id (le.trans ·)⟩

/-! ## The running step in NORMAL mode (R35) -/

theorem Causes.any_eq_false {c : Causes} : c.any = false ↔ c = {} := by
  cases c
  simp [Causes.any, and_assoc]

theorem countDown_eq (window : Option Nat) : countDown window = window.bind fun n => if n ≤ 1 then none else some (n - 1) := by
  cases window <;> rfl

/-- Decisions that the Sequencer drops (R56). -/
theorem seqDecision_of_dropped {p : Part} (d : Decision)
    (h : p.seq.state ∈ [.tripping, .deadTime, .closeWait, .lockout, .failed]) : seqDecision d p = p := by
  simp only [List.mem_cons, List.not_mem_nil, or_false] at h
  rcases h with h | h | h | h | h <;> simp only [seqDecision, h]

/-- The Sequencer's trip on a decision, with the lockout that a manual close forces (R55, R56). -/
theorem seqDecision_of_placed {p : Part} (d : Decision)
    (h : p.seq.state = .closed ∨ p.seq.state = .reclaim ∨ p.seq.state = .closing) :
    seqDecision d p =
      (seqTrip (decisionTrip d)
        (if p.seq.state = .closing ∧ p.seq.purpose = .manual then some .closeOntoFault else none) p).1 := by
  rcases h with h | h | h <;> simp [seqDecision, h]

theorem routeDecision_of_none {mode : Mode} {d : Decision} {p : Part} (h : d.causes = {} ∨ p.mech.order = .trip) :
    routeDecision mode d p = p := by
  have stays : (!d.causes.any || decide (p.mech.order = .trip)) = true := by
    rcases h with h | h
    · rw [Causes.any_eq_false.mpr h]
      rfl
    · simp [h]
  unfold routeDecision
  rw [if_pos stays]

theorem routeDecision_normal {d : Decision} {p : Part} (causes : d.causes ≠ {}) (order : p.mech.order ≠ .trip) :
    routeDecision .normal d p = seqDecision d p := by
  have any : d.causes.any = true := Bool.of_not_eq_false fun h => causes (Causes.any_eq_false.mp h)
  simp [routeDecision, any, order]

/-- The counts of the elements, by their channels (the third statement of O28). -/
theorem counts_spec (st : Settings) (c : Channel) (count : Nat) :
    let reached (level : Nat) : Prop := c.available = true ∧ (c.isClipped = true ∨ level ≤ c.value.getD 0)
    let level := st.highsetLevel.getD 0
    let pickup := st.sefPickup.getD 0
    (level = 0 → stepHighset st c count = 0) ∧
    (level ≠ 0 → c.available = false → stepHighset st c count = count) ∧
    (level ≠ 0 → reached level → stepHighset st c count = min (count + 1) 50) ∧
    (level ≠ 0 → c.available = true → ¬reached level → stepHighset st c count = 0) ∧
    (highsetTrips st c count = true ↔ level ≠ 0 ∧ reached level ∧ max 1 (st.highsetDelay.getD 0 / 10) ≤ count) ∧
    (c.available = false → stepSef st c count = count) ∧
    (reached pickup → stepSef st c count = min (count + 1) 6000) ∧
    (¬reached pickup → reached (pickup * 9 / 10) → stepSef st c count = count) ∧
    (c.available = true → ¬reached (pickup * 9 / 10) → stepSef st c count = 0) ∧
    (sefTrips st c count = true ↔ reached (pickup * 9 / 10) ∧ st.sefDelay.getD 0 / 10 ≤ count) := by
  intro reached level pickup
  refine ⟨fun h => ?_, fun h off => ?_, fun h on => ?_, fun h on below => ?_, ?_, fun off => ?_, fun on => ?_,
    fun below above => ?_, fun on below => ?_, ?_⟩
  · exact if_pos h
  · rw [stepHighset, if_neg h, if_pos (by simp [off])]
  · rw [stepHighset, if_neg h, if_neg (by simp [on.1]), if_pos (atLeast_iff.mpr on)]
  · rw [stepHighset, if_neg h, if_neg (by simp [on]), if_neg (mt atLeast_iff.mp below)]
  · rw [highsetTrips_iff, atLeast_iff]
  · rw [stepSef, if_pos (by simp [off])]
  · rw [stepSef, if_neg (by simp [on.1]), if_pos (atLeast_iff.mpr on)]
  · rw [stepSef, if_neg (by simp [above.1]), if_neg (mt atLeast_iff.mp below),
      if_pos (by exact atLeast_iff.mpr above)]
  · have notPicked : ¬c.atLeast pickup = true := fun h => below (atLeast_iff.mp (atLeast_mono (by omega) h))
    rw [stepSef, if_neg (by simp [on]), if_neg notPicked, if_neg (mt atLeast_iff.mp (by exact below))]
  · rw [sefTrips_iff, atLeast_iff]

theorem countOpen_runs (p : Part) : (countOpen p).runs = p.runs := by
  simp [Part.runs, countOpen_position]

/-- Settles O28. -/
theorem accumulatorAccruesOrDecays : Obligations.AccumulatorAccruesOrDecays := by
  refine ⟨fun c pickup curve tms acc => ⟨fun off => stepAcc_of_unavailable off _ _ _, fun m64 multiple => ⟨fun picked => ?_,
    fun below => ?_⟩⟩, fun curve tms m64 c1 c2 t1 t2 m1 _ => accrual_bounds c1 c2 t1 t2 m1, counts_spec, ?_⟩
  · rw [stepAcc_of_multiple multiple, if_pos picked]
    rfl
  · rw [stepAcc_of_multiple multiple, if_neg (not_le.mpr below)]
    rfl
  · intro p normal ch st cold phase earth curve acc high restrained sef mask sefPicked quiet episode down elements absentSeen
      highLanes sotfLanes causes
    have counted : countOpen p = { p with elements := { p.elements with
        openCount := if p.position = .closed then p.elements.openCount else min (p.elements.openCount + 1) 360000 } } := by
      unfold countOpen
      split <;> rfl
    have outcome : stepOutcome (countOpen p).settings (countOpen p).elements (countOpen p).intake.channels =
        ⟨acc, high, sef, ⟨causes, highLanes, sotfLanes⟩⟩ := by
      rw [counted]
      simp only [stepOutcome, normal]
      rfl
    obtain ⟨ran, ran_eq⟩ : ∃ ran : Part, ran =
        { p with
          intake := { p.intake with absentSeen := absentSeen }
          elements := { elements with sotf := p.elements.sotf, coldLoad := p.elements.coldLoad } } := ⟨_, rfl⟩
    have recorded : elementsRun (countOpen p) = ran := by
      unfold elementsRun
      rw [outcome, counted, ran_eq]
      cases held : p.elements.episode with
      | none =>
        have starts : (if (p.elements.maskEmpty && !quiet) = true then some (startEpisode p.uptime ch) else none) =
            if p.elements.maskEmpty = true ∧ quiet = false then some (startEpisode p.uptime ch) else none := by
          simp only [Bool.and_eq_true, Bool.not_eq_true']
        simp only [Elements.record, held, elements, episode]
        rw [← starts]
        rfl
      | some e =>
        simp only [Elements.record, held, elements, episode]
        rfl
    have stepped : p.position = .closed ∨ (p.position = .travel ∧ p.mech.order = .close) →
        elementsStep p = countWindows .normal (routeDecision .normal ⟨causes, highLanes, sotfLanes⟩ ran) := by
      intro running
      have runs : (countOpen p).runs = true := by
        rw [countOpen_runs]
        rcases running with closed | ⟨travel, order⟩
        · simp [Part.runs, closed]
        · simp [Part.runs, travel, order]
      have mode : (countOpen p).elements.mode = .normal := by
        rw [counted]
        exact normal
      have step : elementsStep p = runningStep (countOpen p) := if_pos runs
      rw [step, runningStep, mode, outcome, recorded]
      rfl
    refine ⟨fun running drops => ?_, fun running some' => ?_⟩
    · have dropped : routeDecision .normal ⟨causes, highLanes, sotfLanes⟩ ran = ran := by
        rcases drops with none | trip | state
        · exact routeDecision_of_none (.inl none)
        · exact routeDecision_of_none (.inr (by rw [ran_eq, trip]))
        · by_cases quietly : causes = {} ∨ ran.mech.order = .trip
          · exact routeDecision_of_none quietly
          · rw [not_or] at quietly
            rw [routeDecision_normal quietly.1 quietly.2, seqDecision_of_dropped _ (by rwa [ran_eq])]
      rw [stepped running, dropped, ran_eq]
      simp only [countWindows, countDown_eq]
      rfl
    · intro t stroke
      have order : ran.mech.order = .none ∨ (ran.mech.order = .close ∧ ran.mech.placer = some .sequencer) := by
        rw [ran_eq]
        exact running.imp (fun h => h.2.1) (fun h => ⟨h.2.1, h.2.2.1⟩)
      have notOpen : ran.position ≠ .opened := by
        have same : ran.position = p.position := by rw [ran_eq]; rfl
        rw [same]
        rcases running with h | h <;> simp [h.1]
      have placed : routeDecision .normal ⟨causes, highLanes, sotfLanes⟩ ran =
          (seqTrip ⟨.elements, none, causes, highLanes, sotfLanes⟩
            (if stroke = true ∧ p.seq.purpose = .manual then some .closeOntoFault else none) ran).1 := by
        rw [routeDecision_normal some' (by rcases order with h | h <;> simp [h]), seqDecision_of_placed]
        · simp only [stroke, decide_eq_true_eq, ran_eq]
          rfl
        · rw [ran_eq]
          rcases running with ⟨-, -, h | h⟩ | h
          · exact .inl h
          · exact .inr (.inl h)
          · exact .inr (.inr h.2.2.2)
      obtain ⟨trip, raised⟩ := seqTrip_placed ⟨.elements, none, causes, highLanes, sotfLanes⟩
        (if stroke = true ∧ p.seq.purpose = .manual then some .closeOntoFault else none) notOpen order
      have part := congrArg Prod.fst trip
      dsimp only at part
      rw [← placed] at part raised
      have ended : t = countWindows .normal (routeDecision .normal ⟨causes, highLanes, sotfLanes⟩ ran) :=
        stepped (running.imp (fun h => h.1) (fun h => ⟨h.1, h.2.1⟩))
      generalize routeDecision .normal ⟨causes, highLanes, sotfLanes⟩ ran = q at part raised ended
      have onStroke : (p.mech.order = .close) = (stroke = true) := by
        simp only [stroke, decide_eq_true_eq]
        rcases running with ⟨-, none, closed | reclaim⟩ | ⟨-, close, -, closing⟩
        · simp [none, closed]
        · simp [none, reclaim]
        · simp [close, closing]
      have notFailed : p.seq.state ≠ .failed := by
        rcases running with ⟨-, -, h | h⟩ | ⟨-, -, -, h⟩ <;> simp [h]
      have trips : ∀ m : Master, t.pendingFor m .trip = true ∧ t.pendingFor m .record = true := by
        intro m
        rw [ended]
        exact ⟨raised.1 _ (by simp) m, raised.1 _ (by simp) m⟩
      rw [ended]
      refine ⟨?_, ?_, ?_, ?_, ended ▸ trips, ?_, ?_, ?_, ?_, ?_, ?_, ?_, ?_⟩
      · change q.mech = _
        rw [part]
        simp [Part.seqTripPlaced, ran_eq, onStroke]
      · change q.seq = _
        rw [part]
        simp [Part.seqTripPlaced, ran_eq, onStroke, notFailed]
      · simp only [countWindows]
        rw [part]
        simp [Part.seqTripPlaced, ran_eq, onStroke, countDown_eq]
        exact ⟨rfl, rfl, rfl, fun _ => normal.symm⟩
      · change q.records = _
        rw [part, ran_eq]
        rfl
      all_goals
        simp only [countWindows]
        rw [part, ran_eq]
        rfl

end Sys2Proof.Machine
end RunningSteps

/-! SUPPORT. Blocks (05_reclose_blocks.md): placing, refreshing, removing and the expiry of an entry; the placement of a
HOT_LINE and what it is handed on to. -/

section Blocks
namespace Sys2Proof.Machine

/-! ## PLACE BLOCK (R81, R82) -/

theorem exec_placeBlock {k : LinkId} {m : Master} {s : State} (kind reason : Byte) (expiry : Half)
    (h : s.toPart.serves k m) :
    exec (.placeBlock k kind reason expiry) s =
      .next (s.withPart
        ((askPlaceBlock k m kind reason expiry (s.toPart.found k m (.placeBlock kind reason expiry))).1.answer k
          (.placeBlock kind reason expiry)
          (askPlaceBlock k m kind reason expiry (s.toPart.found k m (.placeBlock kind reason expiry))).2)) :=
  exec_command_of_allowed h (r := .placeBlock kind reason expiry) rfl

/-- The kinds that no master may place (R81). -/
theorem blockKindOf_part {n : Nat} (h : 2 ≤ n) :
    blockKindOf n = none ∨ blockKindOf n = some .hunt ∨ blockKindOf n = some .measure ∨ blockKindOf n = some .mechanism := by
  match n with
  | 2 => exact .inr (.inl rfl)
  | 3 => exact .inr (.inr (.inl rfl))
  | 4 => exact .inr (.inr (.inr rfl))
  | _ + 5 => exact .inl rfl

theorem askPlaceBlock_operator {k : LinkId} {m : Master} {reason : Byte} {expiry : Half} {p : Part} (hm : m ≠ .crew) :
    askPlaceBlock k m 1 reason expiry p = placeKind k m .operator reason expiry.toNat p :=
  if_pos (decide_eq_true hm)

theorem askPlaceBlock_hotLine {k : LinkId} {m : Master} {reason : Byte} {expiry : Half} {p : Part} (hm : m ≠ .bay) :
    askPlaceBlock k m 0 reason expiry p = placeKind k m .hotLine reason expiry.toNat p :=
  if_pos (decide_eq_true hm)

/-- The kinds that a master may not place, by their codes (R81). -/
theorem askPlaceBlock_refused {k : LinkId} {m : Master} {kind reason : Byte} {expiry : Half} {p : Part}
    (h : (kind = 0 ∧ m = .bay) ∨ (kind = 1 ∧ m = .crew) ∨ 2 ≤ kind.toNat) :
    askPlaceBlock k m kind reason expiry p = (p, Reply.bare .noRight) := by
  rcases h with ⟨rfl, rfl⟩ | ⟨rfl, rfl⟩ | above
  · rfl
  · rfl
  · rcases blockKindOf_part above with b | b | b | b <;> simp only [askPlaceBlock, b] <;> rfl

theorem placeKind_new {k : LinkId} {m : Master} {kind : BlockKind} {reason : Byte} {minutes : Nat} {p : Part}
    (timeless : kind = .hotLine → minutes = 0) (new : findEntry p.entries kind (.master m) reason = none)
    (room : masterCount p.entries < 5) :
    placeKind k m kind reason minutes p =
      (placeNew k m kind reason (appliedExpiry minutes) p,
        ⟨.done, placeBody 0 (appliedExpiry minutes), (appliedExpiry minutes).isNone⟩) := by
  have noTime : ¬((decide (kind = .hotLine) && decide (minutes ≠ 0)) = true) := by
    rw [Bool.and_eq_true, decide_eq_true_iff, decide_eq_true_iff]
    exact fun h => h.2 (timeless h.1)
  unfold placeKind
  rw [if_neg noTime, new]
  exact if_neg (Nat.not_le.mpr room)

theorem placeKind_full {k : LinkId} {m : Master} {reason : Byte} {minutes : Nat} {p : Part}
    (new : findEntry p.entries .operator (.master m) reason = none) (full : 5 ≤ masterCount p.entries) :
    placeKind k m .operator reason minutes p = (p, Reply.bare .listFull) := by
  unfold placeKind
  rw [if_neg (by simp), new]
  exact if_pos full

theorem placeKind_timedHotLine {k : LinkId} {m : Master} {reason : Byte} {minutes : Nat} {p : Part} (timed : 0 < minutes) :
    placeKind k m .hotLine reason minutes p = (p, Reply.bare .outOfRange) :=
  if_pos (by simp; omega)

theorem placeKind_refresh {k : LinkId} {m : Master} {kind : BlockKind} {reason : Byte} {minutes : Nat} {p : Part} {e : BlockEntry}
    (timeless : kind = .hotLine → minutes = 0) (held : findEntry p.entries kind (.master m) reason = some e) :
    placeKind k m kind reason minutes p = refresh k e (appliedExpiry minutes) p := by
  have noTime : ¬((decide (kind = .hotLine) && decide (minutes ≠ 0)) = true) := by
    rw [Bool.and_eq_true, decide_eq_true_iff, decide_eq_true_iff]
    exact fun h => h.2 (timeless h.1)
  unfold placeKind
  rw [if_neg noTime, held]

@[simp] theorem appliedExpiry_zero : appliedExpiry 0 = none := rfl

theorem appliedExpiry_pos {n : Nat} (h : 0 < n) : appliedExpiry n = some (min n 1440) := if_neg (by omega)

theorem refresh_operator {k : LinkId} {e : BlockEntry} (expiry : Option Nat) (p : Part) (h : e.kind = .operator) :
    refresh k e expiry p =
      (refreshOperator k e expiry p, ⟨.done, placeBody 1 expiry, expiry.isSome ≠ e.expiry.isSome⟩) := by
  simp only [refresh, h]

theorem refresh_hotLine {k : LinkId} {e : BlockEntry} (expiry : Option Nat) (p : Part) (h : e.kind = .hotLine) :
    refresh k e expiry p = (p, Reply.done (placeBody 1 none)) := by
  simp only [refresh, h]

/-- The entry of a name that no entry has is not found. -/
theorem findEntry_of_all_false {l : List BlockEntry} {kind : BlockKind} {o : Owner} {reason : Byte}
    (h : ∀ e ∈ l, e.named kind o reason = false) : findEntry l kind o reason = none :=
  List.find?_eq_none.mpr fun e he => by rw [h e he]; exact Bool.false_ne_true

theorem handPlacement_operator_of_not_waiting {p : Part} (deadTime : p.seq.state ≠ .deadTime)
    (closeWait : p.seq.state ≠ .closeWait) : handPlacement .operator p = p :=
  seqBlockPlaced_of_not_reclosing (by decide) deadTime closeWait

/-- A placement of an OPERATOR entry locks a waiting reclose out (R67). -/
theorem handPlacement_operator_of_waiting {p : Part} (h : p.seq.state = .deadTime ∨ p.seq.state = .closeWait) :
    handPlacement .operator p = enterLockout .blocked p := seqBlockPlaced_of_waiting .operator h

/-- Settles O46. -/
theorem operatorBlockPlaced : Obligations.OperatorBlockPlaced := by
  intro k m kind reason expiry s h r p runs minutes named new timed put write stored
  have run : runs = .next (s.withPart ((askPlaceBlock k m kind reason expiry p).1.answer k r
      (askPlaceBlock k m kind reason expiry p).2)) := exec_placeBlock kind reason expiry h
  refine ⟨fun hkind hm hnew room => ?_, fun hkind hm hnew full => ?_, fun outside => ?_, fun hkind hm pos => ?_,
    fun hkind hm untimed held => ?_, fun e hkind hm held => ?_⟩
  · subst hkind
    have asked : askPlaceBlock k m 1 reason expiry p =
        (placeNew k m .operator reason (appliedExpiry expiry.toNat) p,
          ⟨.done, placeBody 0 (appliedExpiry expiry.toNat), (appliedExpiry expiry.toNat).isNone⟩) :=
      (askPlaceBlock_operator hm).trans (placeKind_new (fun h => nomatch h) (findEntry_of_all_false hnew) room)
    rw [run, asked]
    refine ⟨fun pos deadTime closeWait => ?_, fun pos waiting => ?_, fun n zero slot deadTime closeWait => ?_⟩
    · rw [appliedExpiry_pos pos, placeNew, handPlacement_operator_of_not_waiting deadTime closeWait]
      rfl
    · rw [appliedExpiry_pos pos, placeNew, handPlacement_operator_of_waiting waiting, enterLockout_eq]
      rfl
    · have joins : joinAndStore k (p.newEntry .operator m reason none) p =
          raise .blocks (write n (some stored)
            { p with entries := p.entries ++ [⟨.operator, .master m, reason, p.uptime, none, none, some n⟩] }) := by
        have made : p.newEntry .operator m reason none = ⟨.operator, .master m, reason, p.uptime, none, none, some n⟩ := by
          rw [← slot]
          rfl
        rw [made]
        rfl
      rw [zero, appliedExpiry_zero, placeNew, handPlacement_operator_of_not_waiting deadTime closeWait, joins]
      rfl
  · subst hkind
    rw [run, askPlaceBlock_operator hm, placeKind_full (findEntry_of_all_false hnew) full]
    rfl
  · rw [run, askPlaceBlock_refused outside]
    rfl
  · subst hkind
    rw [run, askPlaceBlock_hotLine hm, placeKind_timedHotLine pos]
    rfl
  · subst hkind
    obtain ⟨x, hx, xNamed⟩ := held
    obtain ⟨e, found, -, isHotLine, -, -⟩ := findEntry_some_of_mem (l := p.entries) (k := .hotLine) (o := .master m) (r := reason)
      ⟨x, hx, by simpa [named, and_assoc] using xNamed⟩
    rw [run, askPlaceBlock_hotLine hm, placeKind_refresh (fun _ => untimed) found, refresh_hotLine _ _ isHotLine]
    rfl
  · subst hkind
    obtain ⟨isOperator, isOwn, hasReason⟩ := findEntry_named held
    obtain ⟨eKind, eOwner, eReason, placedAt, eExpiry, moment, slot⟩ := e
    obtain ⟨rfl, rfl, rfl⟩ : eKind = .operator ∧ eOwner = .master m ∧ eReason = reason := ⟨isOperator, isOwn, hasReason⟩
    intro later
    have asked := (askPlaceBlock_operator hm).trans (placeKind_refresh (k := k) (minutes := expiry.toNat)
      (fun h => nomatch h) held)
    rw [run, asked, refresh_operator _ _ rfl]
    refine ⟨fun old wasTimed pos => ?_, fun n wasStored hasSlot pos => ?_, fun old n wasTimed free zero => ?_,
      fun wasStored zero => ?_⟩
    · obtain rfl : eExpiry = some old := wasTimed
      rw [appliedExpiry_pos pos]
      by_cases same : old = minutes
      · rw [if_pos same]
        unfold refreshOperator
        rw [if_pos (congrArg some same.symm)]
        rfl
      · rw [if_neg same]
        unfold refreshOperator
        rw [if_neg fun h => same (Option.some.inj h).symm]
        rfl
    · obtain ⟨rfl, rfl⟩ : eExpiry = none ∧ slot = some n := ⟨wasStored, hasSlot⟩
      rw [appliedExpiry_pos pos]
      rfl
    · obtain rfl : eExpiry = some old := wasTimed
      have fresh : p.refreshedEntry ⟨.operator, .master m, eReason, placedAt, some old, moment, slot⟩ none =
          ⟨.operator, .master m, eReason, placedAt, none, none, some n⟩ := by
        rw [← free]
        rfl
      rw [zero, appliedExpiry_zero]
      unfold refreshOperator
      rw [fresh]
      rfl
    · obtain rfl : eExpiry = none := wasStored
      rw [zero, appliedExpiry_zero]
      rfl

/-! ## REMOVE BLOCK and the expiry (R86 to R88) -/

theorem exec_removeBlock {k : LinkId} {m : Master} {s : State} (kind owner reason : Byte) (h : s.toPart.serves k m) :
    exec (.removeBlock k kind owner reason) s =
      .next (s.withPart
        ((askRemoveBlock k m kind owner reason (s.toPart.found k m (.removeBlock kind owner reason))).1.answer k
          (.removeBlock kind owner reason)
          (askRemoveBlock k m kind owner reason (s.toPart.found k m (.removeBlock kind owner reason))).2)) :=
  exec_command_of_allowed h (r := .removeBlock kind owner reason) rfl

/-- The masters' bytes are their own (R187). -/
theorem ownerOf_eq_master {n : Nat} {m : Master} (h : ownerOf n = some (.master m)) : n = Master.code m := by
  match n with
  | 0 | 1 | 2 => cases m <;> first | rfl | cases h
  | 3 => cases h
  | _ + 4 => cases h

/-- The operands that the rights checks of R86 refuse. -/
theorem askRemoveBlock_refused {k : LinkId} {m : Master} {kind owner reason : Byte} {p : Part}
    (h : 2 ≤ kind.toNat ∨ (kind = 0 ∧ owner.toNat ≠ Master.code m) ∨ (kind = 1 ∧ m = .crew)) :
    askRemoveBlock k m kind owner reason p = (p, Reply.bare .noRight) := by
  rcases h with above | ⟨rfl, notOwn⟩ | ⟨rfl, rfl⟩
  · rcases blockKindOf_part above with b | b | b | b <;> simp only [askRemoveBlock, b] <;> rfl
  · exact if_neg fun own => notOwn (ownerOf_eq_master (of_decide_eq_true own))
  · rfl

theorem askRemoveBlock_operator {k : LinkId} {m o : Master} {reason : Byte} {p : Part} (hm : m ≠ .crew) :
    askRemoveBlock k m 1 (byte (Master.code o)) reason p = removeKind k .operator (some (.master o)) reason p :=
  (if_pos (decide_eq_true hm)).trans (by rw [ownerOf_code])

theorem askRemoveBlock_hotLine {k : LinkId} {m : Master} {reason : Byte} {p : Part} :
    askRemoveBlock k m 0 (byte (Master.code m)) reason p = removeKind k .hotLine (some (.master m)) reason p :=
  (if_pos (decide_eq_true (ownerOf_code m))).trans (by rw [ownerOf_code])

/-- What a removal of a named entry is: the entry leaves the list, and its slot is written EMPTY (R87). -/
theorem removeKind_found {k : LinkId} {kind : BlockKind} {o : Owner} {reason : Byte} {p : Part}
    (h : ∃ e ∈ p.entries, e.named kind o reason = true) {slot : Option SlotId}
    (slots : ∀ e ∈ p.entries, e.named kind o reason = true → e.slot = slot) :
    ∃ e : BlockEntry, e.kind = kind ∧ e.owner = o ∧ e.reason = reason ∧ e.slot = slot ∧
      removeKind k kind (some o) reason p = (removeEntry e (some k) p, ⟨.done, [], slot.isSome⟩) := by
  obtain ⟨x, hx, xNamed⟩ := h
  obtain ⟨e, found, he, isKind, isOwner, hasReason⟩ := findEntry_some_of_mem (l := p.entries) (k := kind) (o := o) (r := reason)
    ⟨x, hx, by simpa [BlockEntry.named, and_assoc] using xNamed⟩
  have hasSlot : e.slot = slot := slots e he (by simp [BlockEntry.named, isKind, isOwner, hasReason])
  refine ⟨e, isKind, isOwner, hasReason, hasSlot, ?_⟩
  rw [← hasSlot]
  simp only [removeKind, found]

theorem removeKind_notFound {k : LinkId} {kind : BlockKind} {o : Owner} {reason : Byte} {p : Part}
    (h : ∀ e ∈ p.entries, e.named kind o reason = false) :
    removeKind k kind (some o) reason p = (p, Reply.bare .notFound) := by
  simp only [removeKind, findEntry_of_all_false h]

theorem leaveEntry_operator {e : BlockEntry} (h : e.kind = .operator) (p : Part) :
    leaveEntry e p = { p with entries := p.entries.filter fun x => !x.named .operator e.owner e.reason } := by
  obtain ⟨kind, owner, reason, placedAt, expiry, moment, slot⟩ := e
  obtain rfl : kind = .operator := h
  rfl

theorem leaveEntry_hotLine {e : BlockEntry} (h : e.kind = .hotLine) (p : Part) :
    leaveEntry e p =
      if hotLineCount p.entries = 1 then
        tellHotLine false { p with entries := p.entries.filter fun x => !x.named .hotLine e.owner e.reason }
      else { p with entries := p.entries.filter fun x => !x.named .hotLine e.owner e.reason } := by
  obtain ⟨kind, owner, reason, placedAt, expiry, moment, slot⟩ := e
  obtain rfl : kind = .hotLine := h
  simp [leaveEntry]

/-- Settles O48. -/
theorem blockLeavesList : Obligations.BlockLeavesList := by
  intro k m o reason s h r found named left write own other
  refine ⟨fun hm held => ⟨fun slots => ?_, fun n slots => ?_⟩, fun hm absent => ?_, fun n held slots => ?_,
    fun kind owner outside => ?_, fun e held slots => ?_⟩
  · obtain ⟨e, isKind, isOwner, hasReason, hasSlot, removed⟩ := removeKind_found (k := k) held slots
    rw [exec_removeBlock 1 other reason h, askRemoveBlock_operator hm, removed, removeEntry, leaveEntry_operator isKind,
      isOwner, hasReason, hasSlot]
    rfl
  · obtain ⟨e, isKind, isOwner, hasReason, hasSlot, removed⟩ := removeKind_found (k := k) held slots
    rw [exec_removeBlock 1 other reason h, askRemoveBlock_operator hm, removed, removeEntry, leaveEntry_operator isKind,
      isOwner, hasReason, hasSlot]
    rfl
  · rw [exec_removeBlock 1 other reason h, askRemoveBlock_operator hm, removeKind_notFound absent]
    rfl
  · intro p q
    obtain ⟨e, isKind, isOwner, hasReason, hasSlot, removed⟩ := removeKind_found (k := k) held slots
    rw [exec_removeBlock 0 own reason h, askRemoveBlock_hotLine, removed, removeEntry, leaveEntry_hotLine isKind,
      isOwner, hasReason, hasSlot]
    refine ⟨fun others => ?_, fun last => ?_⟩
    · rw [if_neg others]
      rfl
    · rw [if_pos last]
      rfl
  · rw [exec_removeBlock kind owner reason h, askRemoveBlock_refused outside]
    rfl
  · obtain ⟨x, hx, xNamed⟩ := held
    obtain ⟨y, hy, isMem, isKind, isOwner, hasReason⟩ := findEntry_some_of_mem (l := s.entries) (k := .operator)
      (o := .master o) (r := reason) ⟨x, hx, by simpa [named, and_assoc] using xNamed⟩
    obtain ⟨moment, noSlot⟩ := slots y isMem (by simp [named, isKind, isOwner, hasReason])
    have taken : blockExpired o reason s.toPart = raise .blocks { s.toPart with
        clock := max s.clock (e * 1000), entries := left .operator o s.toPart } := by
      unfold blockExpired
      rw [show findEntry s.toPart.entries .operator (.master o) reason = some y from hy]
      simp only [moment, removeEntry]
      rw [leaveEntry_operator isKind, isOwner, hasReason, noSlot]
      rfl
    exact congrArg (fun q => Host.Outcome.next (s.withPart q)) taken

end Sys2Proof.Machine
end Blocks

/-! SUPPORT. Settings groups and fire posture (06_settings_groups_and_fire_posture.md): what a recomputation hands on, the
inputs of the fire level, the groups and the section table. -/

section Posture
namespace Sys2Proof.Machine

/-! ## Recomputation (R116, R118) -/

/-- The part with its selection formed afresh, before anything is handed on (R118, item 1). -/
def Part.reselected (p : Part) : Part := { p with posture := p.posture.select }

/-- The part as Elements leave it once they have taken new active settings (R29). -/
def Part.settingsTaken (p : Part) : Part :=
  { p.reselected with
    elements :=
      { p.elements with
        coldLoad := if p.reselected.settings.coldLoadMultiplier.getD 0 = 100 then none else p.elements.coldLoad } }

@[simp] theorem recompute_posture (p : Part) : (recompute p).posture = p.posture.select := by
  unfold recompute
  simp

theorem recompute_settings (p : Part) : (recompute p).settings = p.reselected.settings := by
  unfold Part.settings
  rw [recompute_posture]
  rfl

/-- Elements take new active settings by the cold-load window alone (R29). -/
theorem elementsSettings_eq (p : Part) :
    elementsSettings p =
      { p with
        elements :=
          { p.elements with
            coldLoad := if p.settings.coldLoadMultiplier.getD 0 = 100 then none else p.elements.coldLoad } } := by
  unfold elementsSettings
  split <;> rfl

/-- A level that is not BAN is handed on to nobody's effect (R68, R145). -/
theorem announceLevel_of_not_ban {p : Part} (h : p.posture.level ≠ .ban) : announceLevel p = p := by
  have seq : seqLevelChanged p = p := if_neg (by simp [h])
  rw [announceLevel, seq]
  exact if_neg h

/-- With the level and the active settings as they were, nothing is handed on. -/
theorem recompute_of_same {p : Part} (level : p.posture.select.level = p.posture.level)
    (active : p.posture.select.active = p.posture.active) : recompute p = p.reselected := by
  simp [recompute, announceMoves, level, active, Part.reselected]

/-- The active settings move without a change to BAN: Elements and the Sequencer take them (R118, item 3). -/
theorem recompute_of_settings_moved {p : Part} (active : p.posture.select.active ≠ p.posture.active)
    (noBan : p.posture.select.level = p.posture.level ∨ p.posture.select.level ≠ .ban) :
    recompute p = raise .posture (seqSettingsChanged p.settingsTaken) := by
  have announced : (if decide (p.posture.select.level ≠ p.posture.level) = true then announceLevel p.reselected
      else p.reselected) = p.reselected := by
    split
    next moved =>
      exact announceLevel_of_not_ban (noBan.resolve_left (of_decide_eq_true moved))
    next => rfl
  have taken : announceSettings p.reselected = seqSettingsChanged p.settingsTaken := by
    rw [announceSettings, elementsSettings_eq]
    rfl
  unfold recompute announceMoves
  rw [decide_eq_true active, Bool.or_true]
  simp only [if_true]
  change raise .posture (announceSettings (if decide (p.posture.select.level ≠ p.posture.level) = true then
    announceLevel p.reselected else p.reselected)) = _
  rw [announced, taken]

/-- The level moves: it is handed on before the settings (R118). -/
theorem recompute_of_level_moved {p : Part} (level : p.posture.select.level ≠ p.posture.level) :
    recompute p =
      raise .posture
        (if p.posture.select.active = p.posture.active then announceLevel p.reselected
         else announceSettings (announceLevel p.reselected)) := by
  unfold recompute announceMoves
  rw [decide_eq_true level, Bool.true_or]
  simp only [if_true]
  by_cases active : p.posture.select.active = p.posture.active
  · rw [if_pos active, if_neg (by simp [active])]
    rfl
  · rw [if_neg active, if_pos (by simp [active])]
    rfl

theorem recompute_raises {p : Part} (h : p.posture.select.level ≠ p.posture.level ∨ p.posture.select.active ≠ p.posture.active)
    (m : Master) : (recompute p).pendingFor m .posture = true := by
  unfold recompute announceMoves
  have moved : (decide (p.posture.select.level ≠ p.posture.level) || decide (p.posture.select.active ≠ p.posture.active)) =
      true := by
    rw [Bool.or_eq_true, decide_eq_true_iff, decide_eq_true_iff]
    exact h
  dsimp only
  rw [if_pos moved]
  exact raise_pending (by simp) _ m

/-- With a HOT_LINE G3 is wanted, and nothing but FALLBACK stands above it (R116). -/
theorem select_active_of_hotLine {q : Posture} (h : q.hotLinePresent = true) :
    q.select.active = .group .g3 ∨ q.select.active = .fallback := by
  have wanted : q.select.wanted = .g3 := if_pos h
  cases active : q.select.active with
  | fallback => exact .inr rfl
  | group g =>
    refine .inl ?_
    obtain ⟨-, above, -⟩ := selected_group (groups := q.groups) (w := q.select.wanted) (g := g) active
    rw [wanted] at above
    cases g with
    | g3 => rfl
    | g0 | g1 | g2 => simp [GroupId.code] at above

/-- At BAN G2 or G3 is wanted (R116). -/
theorem select_active_of_ban {q : Posture} (h : q.select.level = .ban) :
    q.select.active = .group .g2 ∨ q.select.active = .group .g3 ∨ q.select.active = .fallback := by
  have wanted : 2 ≤ GroupId.code q.select.wanted := by
    have formed : q.formed = .ban := h
    change 2 ≤ GroupId.code (wantedGroup q.hotLinePresent q.formed)
    rw [formed]
    cases q.hotLinePresent <;> decide
  cases active : q.select.active with
  | fallback => exact .inr (.inr rfl)
  | group g =>
    obtain ⟨-, above, -⟩ := selected_group (groups := q.groups) (w := q.select.wanted) (g := g) active
    have reached := wanted.trans above
    cases g with
    | g2 => exact .inl rfl
    | g3 => exact .inr (.inl rfl)
    | g0 | g1 => simp [GroupId.code] at reached

/-! ### A change to BAN (R68, R145) -/

theorem seqSettingsChanged_of_resting {p : Part} (deadTime : p.seq.state ≠ .deadTime) (closeWait : p.seq.state ≠ .closeWait)
    (reclaim : p.seq.state ≠ .reclaim) : seqSettingsChanged p = p := by
  unfold seqSettingsChanged
  split
  iterate 3 contradiction
  rfl

/-- A change to BAN locks a waiting reclose out, with no hunt to abandon (R68). -/
theorem announceLevel_of_waiting {p : Part} (ban : p.posture.level = .ban)
    (waiting : p.seq.state = .deadTime ∨ p.seq.state = .closeWait) (noHunt : p.hunt.state.running = false) :
    announceLevel p = enterLockout .fireBan p := by
  have seq : seqLevelChanged p = enterLockout .fireBan p := if_pos (by simpa [ban] using waiting)
  have still : (enterLockout .fireBan p).hunt.state.running ≠ true := by
    rw [enterLockout_eq]
    simp [noHunt]
  have banned : (enterLockout .fireBan p).posture.level = .ban := by
    rw [enterLockout_eq]
    exact ban
  rw [announceLevel, seq, huntLevelChanged, if_pos banned]
  exact if_neg still

/-- A change to BAN abandons a running hunt (R145). -/
theorem announceLevel_of_held {p : Part} (ban : p.posture.level = .ban) (held : p.heldByHunt) :
    announceLevel p = abandon .fireBan none emptyCall p := by
  have seq : seqLevelChanged p = p := if_neg (by simp [held.held])
  rw [announceLevel, seq, huntLevelChanged, if_pos ban]
  exact if_pos held.running

/-- An abandoned hunt leaves the Sequencer where it was or in LOCKOUT, and the settings as they were. -/
theorem HuntAbandoned.rested {reason : HuntReason} {detail : Option HuntDetail} {causes : Causes}
    {requester : Option Master} {p q : Part} (h : HuntAbandoned reason detail causes requester p q) :
    q.posture = p.posture ∧ (q.seq = p.seq ∨ q.seq.state = .lockout) := by
  by_cases opened : p.position = .opened
  · by_cases close : p.mech.order = .close
    · rw [(h.pulled opened close).1]
      exact ⟨rfl, .inr rfl⟩
    · rw [(h.handedBack opened close).1]
      exact ⟨rfl, .inr rfl⟩
  · by_cases trip : p.mech.order = .trip
    · rw [(h.waits opened trip).1]
      exact ⟨rfl, .inl rfl⟩
    · rw [(h.tripped opened trip).1]
      exact ⟨rfl, .inl rfl⟩

/-- After an abandonment the settings reach the cold-load window alone. -/
theorem HuntAbandoned.announceSettings {reason : HuntReason} {detail : Option HuntDetail} {causes : Causes}
    {requester : Option Master} {p q : Part} (h : HuntAbandoned reason detail causes requester p q)
    (held : p.seq.state = .huntHeld) :
    announceSettings q =
      { q with
        elements :=
          { q.elements with
            coldLoad := if p.settings.coldLoadMultiplier.getD 0 = 100 then none else q.elements.coldLoad } } := by
  obtain ⟨posture, rests⟩ := h.rested
  have settings : q.settings = p.settings := by
    unfold Part.settings
    rw [posture]
  have state : q.seq.state = .huntHeld ∨ q.seq.state = .lockout := rests.imp (fun h => by rw [h, held]) id
  rw [Machine.announceSettings, elementsSettings_eq, settings]
  refine seqSettingsChanged_of_resting ?_ ?_ ?_ <;>
    · change q.seq.state ≠ _
      rcases state with h | h <;> simp [h]

/-! ### New settings and the Sequencer (R69, R70) -/

/-- The part after a recomputation that moved the settings, by what the Sequencer made of them. -/
theorem recompute_becomes {p : Part} {seq : Sequencer} {notices : PerMaster MasterNotices}
    (active : p.posture.select.active ≠ p.posture.active)
    (noBan : p.posture.select.level = p.posture.level ∨ p.posture.select.level ≠ .ban)
    (h : seqSettingsChanged p.settingsTaken = { p.settingsTaken with seq := seq, notices := notices }) :
    recompute p =
      { p with
        posture := (recompute p).posture, elements := p.settingsTaken.elements, seq := seq
        notices := (recompute p).notices } := by
  rw [recompute_posture]
  have eq : recompute p = raise .posture { p.settingsTaken with seq := seq, notices := notices } := by
    rw [recompute_of_settings_moved active noBan, h]
  generalize recompute p = q at *
  rw [eq, raise_eq]
  rfl

theorem seqSettingsChanged_waiting {p : Part} {k : Nat} (waiting : p.seq.state = .deadTime ∨ p.seq.state = .closeWait)
    (pending : p.seq.pendingShot = some k) : seqSettingsChanged p = seqRetimeShot k p := by
  rcases waiting with h | h <;> simp only [seqSettingsChanged, h, pending] <;> rfl

theorem seqRetimeShot_elapsed {p : Part} {k opened : Nat} (shots : k ≤ p.settings.shots.getD 0)
    (opening : p.seq.openingMoment = some opened) (elapsed : opened + p.settings.deadTime k ≤ p.clock) :
    seqRetimeShot k p = if p.seq.state = .deadTime then deadTimeEnded p else p := by
  unfold seqRetimeShot
  rw [if_neg (by omega), opening, if_pos (by exact elapsed)]

theorem seqRetimeShot_running {p : Part} {k opened : Nat} (shots : k ≤ p.settings.shots.getD 0)
    (opening : p.seq.openingMoment = some opened) (running : p.clock < opened + p.settings.deadTime k) :
    seqRetimeShot k p =
      { p with
        seq :=
          { p.seq with
            state := .deadTime, deadTimer := some (opened + p.settings.deadTime k), closeWaitTimer := none } } := by
  unfold seqRetimeShot
  rw [if_neg (by omega), opening, if_neg (by exact Nat.not_le.mpr running)]
  rfl

theorem deadTimeEnded_waits {p : Part} (state : p.seq.state = .deadTime)
    (missing : p.entries ≠ [] ∨ p.intake.sourceLive = false ∨ p.mech.energyHigh = false) :
    deadTimeEnded p =
      { p with
        seq := { p.seq with state := .closeWait, deadTimer := none, closeWaitTimer := some (p.clock + 10000) } } := by
  have conditions : ¬Part.recloseConditions { p with seq := { p.seq with deadTimer := none } } = true := by
    rw [recloseConditions_iff]
    rintro ⟨entries, live, energy⟩
    rcases missing with h | h | h
    · exact h entries
    · exact absurd live (by simp [h])
    · exact absurd energy (by simp [h])
  unfold deadTimeEnded
  dsimp only
  rw [if_pos state, if_neg conditions]
  rfl

theorem deadTimeEnded_closes {p : Part} {k : Nat} (state : p.seq.state = .deadTime) (pending : p.seq.pendingShot = some k)
    (shots : k ≤ p.settings.shots.getD 0) (entries : p.entries = []) (live : p.intake.sourceLive = true)
    (energy : p.mech.energyHigh = true) (order : p.mech.order = .none) (opened : p.position = .opened) :
    deadTimeEnded p =
      { p with
        mech :=
          { p.mech with
            order := .close, placer := some .sequencer, orderTimer := some (p.clock + 300), closeOutput := true
            travelTimer := none }
        elements := { p.elements with closeKind := .automatic }
        seq :=
          { p.seq with
            state := .closing, shotsUsed := k, pendingShot := none, purpose := .automatic, deadTimer := none
            closeWaitTimer := none } } := by
  have conditions : Part.recloseConditions { p with seq := { p.seq with deadTimer := none } } = true :=
    recloseConditions_iff.mpr ⟨entries, live, energy⟩
  have accepted : closeRefusal { p with seq := { p.seq with deadTimer := none } } = none :=
    closeRefusal_of_recloseConditions entries energy order opened
  unfold deadTimeEnded
  dsimp only
  rw [if_pos state, if_pos conditions, automaticClose_accepted (by exact pending) (by exact shots) accepted]

theorem reclaimEnded_eq {p : Part} (state : p.seq.state = .reclaim) :
    reclaimEnded p =
      raise .recloseOk { p with seq := { p.seq.rests .closed with shotsUsed := 0 } } := by
  unfold reclaimEnded
  dsimp only
  rw [if_pos state]
  rfl

/-- The last part of O50's statement: new active settings that bring no BAN (R29, R69, R70). -/
theorem recompute_retimes {p : Part} (active : p.posture.select.active ≠ p.posture.active)
    (noBan : p.posture.select.level = p.posture.level ∨ p.posture.select.level ≠ .ban) :
    let q := recompute p
    let new := p.reselected.settings
    let elements : Elements := p.settingsTaken.elements
    let becomes (seq : Sequencer) : Prop :=
      q = { p with posture := q.posture, elements := elements, seq := seq, notices := q.notices }
    (p.seq.state ≠ .deadTime → p.seq.state ≠ .closeWait → p.seq.state ≠ .reclaim → becomes p.seq) ∧
    (∀ k opened : Nat, p.seq.state = .deadTime ∨ p.seq.state = .closeWait → p.seq.pendingShot = some k →
      p.seq.openingMoment = some opened →
      (new.shots.getD 0 < k →
        becomes (p.seq.lockedOut .settings) ∧ ∀ m : Master, q.pendingFor m .lockout = true) ∧
      (k ≤ new.shots.getD 0 → opened + new.deadTime k ≤ p.clock →
        (p.seq.state = .closeWait → becomes p.seq) ∧
        (p.seq.state = .deadTime → (p.entries ≠ [] ∨ p.intake.sourceLive = false ∨ p.mech.energyHigh = false) →
          becomes
            { p.seq with state := .closeWait, deadTimer := none, closeWaitTimer := some (p.clock + 10000) }) ∧
        (p.seq.state = .deadTime → p.entries = [] → p.intake.sourceLive = true → p.mech.energyHigh = true →
          p.mech.order = .none → p.position = .opened →
          q =
            { p with
              posture := q.posture
              notices := q.notices
              mech :=
                { p.mech with
                  order := .close, placer := some .sequencer, orderTimer := some (p.clock + 300), closeOutput := true
                  travelTimer := none }
              elements := { elements with closeKind := .automatic }
              seq :=
                { p.seq with
                  state := .closing, shotsUsed := k, pendingShot := none, purpose := .automatic, deadTimer := none
                  closeWaitTimer := none } })) ∧
      (k ≤ new.shots.getD 0 → p.clock < opened + new.deadTime k →
        becomes
          { p.seq with
            state := .deadTime, deadTimer := some (opened + new.deadTime k), closeWaitTimer := none })) ∧
    (∀ closed : Nat, p.seq.state = .reclaim → p.seq.closeMoment = some closed →
      (closed + new.reclaimTime.getD 0 * 1000 ≤ p.clock →
        becomes { p.seq.rests .closed with shotsUsed := 0 } ∧ ∀ m : Master, q.pendingFor m .recloseOk = true) ∧
      (p.clock < closed + new.reclaimTime.getD 0 * 1000 →
        becomes { p.seq with reclaimTimer := some (closed + new.reclaimTime.getD 0 * 1000) })) := by
  intro q new elements becomes
  have moved : q = raise .posture (seqSettingsChanged p.settingsTaken) := recompute_of_settings_moved active noBan
  refine ⟨fun deadTime closeWait reclaim => ?_, fun k opened waiting pending opening => ⟨fun cut => ?_, fun shots elapsed =>
    ⟨fun state => ?_, fun state missing => ?_, fun state entries live energy order opened => ?_⟩, fun shots running => ?_⟩,
    fun closed state closing => ⟨fun elapsed => ?_, fun running => ?_⟩⟩
  · exact recompute_becomes active noBan (seqSettingsChanged_of_resting (p := p.settingsTaken) deadTime closeWait reclaim)
  · have locked : seqSettingsChanged p.settingsTaken = enterLockout .settings p.settingsTaken :=
      (seqSettingsChanged_waiting (p := p.settingsTaken) waiting pending).trans (if_pos cut)
    refine ⟨recompute_becomes active noBan (locked.trans (enterLockout_eq _ _)), fun m => ?_⟩
    rw [moved, locked]
    exact raise_kept _ _ _ _ ((enterLockout_raised _ _).1 _ (by simp) m)
  · refine recompute_becomes active noBan ((seqSettingsChanged_waiting (p := p.settingsTaken) waiting pending).trans
      ((seqRetimeShot_elapsed (p := p.settingsTaken) shots opening elapsed).trans (if_neg ?_)))
    change p.seq.state ≠ .deadTime
    simp [state]
  · exact recompute_becomes active noBan ((seqSettingsChanged_waiting (p := p.settingsTaken) waiting pending).trans
      ((seqRetimeShot_elapsed (p := p.settingsTaken) shots opening elapsed).trans ((if_pos state).trans
        (deadTimeEnded_waits state missing))))
  · have closes := (seqSettingsChanged_waiting (p := p.settingsTaken) waiting pending).trans
      ((seqRetimeShot_elapsed (p := p.settingsTaken) shots opening elapsed).trans ((if_pos state).trans
        (deadTimeEnded_closes (p := p.settingsTaken) state pending shots entries live energy order opened)))
    rw [closes] at moved
    have posture : q.posture = p.posture.select := recompute_posture p
    rw [posture]
    clear_value q
    rw [moved, raise_eq]
    rfl
  · exact recompute_becomes active noBan ((seqSettingsChanged_waiting (p := p.settingsTaken) waiting pending).trans
      (seqRetimeShot_running (p := p.settingsTaken) shots opening running))
  · have retimes : seqSettingsChanged p.settingsTaken = reclaimEnded p.settingsTaken := by
      have taken : seqSettingsChanged p.settingsTaken = seqRetimeReclaim p.settingsTaken := by
        simp only [seqSettingsChanged, show p.settingsTaken.seq.state = .reclaim from state]
      rw [taken, seqRetimeReclaim, show p.settingsTaken.seq.closeMoment = some closed from closing]
      exact if_pos elapsed
    rw [reclaimEnded_eq (p := p.settingsTaken) state] at retimes
    refine ⟨recompute_becomes active noBan (retimes.trans (raise_eq _ _)), fun m => ?_⟩
    rw [moved, retimes]
    exact raise_kept _ _ _ _ (raise_pending (by simp) _ m)
  · have taken : seqSettingsChanged p.settingsTaken = seqRetimeReclaim p.settingsTaken := by
      simp only [seqSettingsChanged, show p.settingsTaken.seq.state = .reclaim from state]
    rw [seqRetimeReclaim, show p.settingsTaken.seq.closeMoment = some closed from closing,
      if_neg (by exact Nat.not_le.mpr running)] at taken
    exact recompute_becomes active noBan taken

/-- Settles O50. -/
theorem selectionRecomputed : Obligations.SelectionRecomputed := by
  intro p q
  have posture : q.posture = p.posture.select := recompute_posture p
  refine ⟨posture, fun g active => ?_, fun active => ?_, fun hotLine => ?_, fun ban => ?_, fun level active => ?_,
    fun moved m => ?_, fun ban wasNot waiting noHunt => ?_, fun ban wasNot held => ?_, fun active noBan => ?_⟩
  · rw [posture] at active ⊢
    exact selected_group active
  · rw [posture] at active ⊢
    exact selected_fallback active
  · rw [posture] at hotLine ⊢
    exact select_active_of_hotLine hotLine
  · rw [posture] at ban ⊢
    exact select_active_of_ban ban
  · rw [posture] at level active ⊢
    exact recompute_of_same level active
  · rw [posture] at moved
    exact recompute_raises moved m
  · rw [posture] at ban
    have announced : announceLevel p.reselected = enterLockout .fireBan p.reselected :=
      announceLevel_of_waiting (p := p.reselected) ban waiting noHunt
    have locked : (enterLockout .fireBan p.reselected).seq = p.seq.lockedOut .fireBan := by
      rw [enterLockout_eq]
      rfl
    have eq : q = raise .posture (if p.posture.select.active = p.posture.active then enterLockout .fireBan p.reselected
        else elementsSettings (enterLockout .fireBan p.reselected)) := by
      change recompute p = _
      rw [recompute_of_level_moved (by rw [ban]; exact fun h => wasNot h.symm), announced, announceSettings,
        seqSettingsChanged_of_resting] <;>
      · simp only [elementsSettings_frame, locked]
        simp [Sequencer.lockedOut, Sequencer.rests]
    have seq : q.seq = p.seq.lockedOut .fireBan := by
      rw [eq]
      split <;> simp [locked]
    have mech : q.mech = p.mech := by
      rw [eq]
      split <;> simp [enterLockout, Part.reselected]
    exact ⟨by rw [seq]; rfl, by rw [seq]; rfl, mech⟩
  · have settings : q.settings = p.reselected.settings := recompute_settings p
    rw [posture] at ban
    have heldBy : p.reselected.heldByHunt := ⟨held.running, held.held, held.sound, held.own⟩
    have abandoned : HuntAbandoned .fireBan none {} none p.reselected (abandon .fireBan none emptyCall p.reselected) :=
      abandon_spec none {} none (by simp) heldBy.sound heldBy.own
    refine ⟨_, abandoned, ?_⟩
    rw [settings, posture]
    change recompute p = _
    rw [recompute_of_level_moved (by rw [ban]; exact fun h => wasNot h.symm), announceLevel_of_held (by exact ban) heldBy,
      abandoned.announceSettings heldBy.held]
  · intro new
    have settings : new = p.reselected.settings := recompute_settings p
    rw [posture] at active noBan
    have retimes := recompute_retimes active noBan
    clear_value new
    subst settings
    exact retimes

/-! ## The inputs of the fire level (R108 to R112) -/

/-- What a request that its role may make leads to, by the operation that takes it. -/
theorem exec_command_eq {k : LinkId} {m : Master} {s : State} (h : s.toPart.serves k m) {r : Request}
    (right : mayRequest m r = true) {q : Part} {reply : Reply} (taken : ownerTakes k m r (s.toPart.found k m r) = (q, reply)) :
    exec (r.command k) s = .next (s.withPart (q.answer k r reply)) := by
  rw [exec_command_of_allowed h right, taken]

theorem askSetSeason_code (k : LinkId) (x : Season) (p : Part) :
    askSetSeason k (byte x.code) p =
      if x = p.posture.season then (p, Reply.done [])
      else
        (recompute (queueWrite (.season x) (some k) { p with posture := { p.posture with season := x } }),
          ⟨.done, [], true⟩) := by
  unfold askSetSeason
  rw [seasonOf_code]

theorem askDeclare_none (hours : Byte) (p : Part) :
    askDeclare (byte Level.none.code) hours p =
      (recompute { p with posture := { p.posture with declared := .none, declaredExpiry := none } }, Reply.done [byte 0]) :=
  rfl

theorem askDeclare_code {x : Level} (hx : x ≠ .none) (hours : Byte) (p : Part) :
    askDeclare (byte x.code) hours p =
      if hours.toNat = 0 then (p, Reply.bare .outOfRange) else declare x (min hours.toNat 72) p := by
  cases x with
  | none => exact absurd rfl hx
  | elevated => rfl
  | ban => rfl

theorem askRaiseLocal_code {x : Level} (hx : x ≠ .none) (p : Part) :
    askRaiseLocal (byte x.code) p =
      if p.posture.localRaise.code < x.code then
        (recompute { p with posture := { p.posture with localRaise := x } }, Reply.done [byte 0])
      else (p, Reply.done [byte 1]) := by
  have codes : ∀ l : Level, l.rank = l.code := fun l => by cases l <;> rfl
  rw [← codes, ← codes]
  cases x with
  | none => exact absurd rfl hx
  | elevated => rfl
  | ban => rfl

/-- Settles O51. -/
theorem fireLevelInputsTaken : Obligations.FireLevelInputsTaken := by
  refine ⟨fun k m x s h hm => ?_, fun k hours x s h => ?_, fun k x s h => ?_, fun k s h => ?_, fun e s => ?_⟩
  · intro r p
    have right : mayRequest m r = true := decide_eq_true hm
    refine ⟨fun same => exec_command_eq h right ?_, fun other => exec_command_eq h right ?_⟩
    · exact (askSetSeason_code k x p).trans (if_pos same)
    · exact (askSetSeason_code k x p).trans (if_neg other)
  · intro r p applied
    refine ⟨fun none => exec_command_eq h (r := r) rfl ?_, fun some zero => exec_command_eq h (r := r) rfl ?_,
      fun some hours' => exec_command_eq h (r := r) rfl ?_⟩
    · subst none
      exact askDeclare_none hours p
    · exact (askDeclare_code some hours p).trans (if_pos (by rw [zero]; rfl))
    · exact (askDeclare_code some hours p).trans (if_neg fun zero => hours' (BitVec.eq_of_toNat_eq zero))
  · intro r p
    refine ⟨fun none => exec_command_eq h (r := r) rfl ?_, fun some above => exec_command_eq h (r := r) rfl ?_,
      fun some below => exec_command_eq h (r := r) rfl ?_⟩
    · subst none
      rfl
    · exact (askRaiseLocal_code some p).trans (if_pos above)
    · exact (askRaiseLocal_code some p).trans (if_neg (Nat.not_lt.mpr below))
  · intro p
    refine ⟨fun none => exec_command_eq h (r := .clearLocalLevel) rfl ?_,
      fun some => exec_command_eq h (r := .clearLocalLevel) rfl ?_⟩
    · exact if_pos none
    · exact if_neg some
  · refine ⟨fun expiry => ?_, fun timer => ?_⟩
    · change Host.Outcome.next (s.withPart (expired (s.posture.declaredExpiry.map (· * 1000)) declarationEnded s.toPart)) = _
      rw [expiry]
      rfl
    · change Host.Outcome.next (s.withPart (expired s.posture.silenceTimer silenceEnded s.toPart)) = _
      rw [timer]
      rfl

end Sys2Proof.Machine
end Posture

/-! SUPPORT. The settings groups written and confirmed (06_settings_groups_and_fire_posture.md, R96 to R104, R113). -/

section Groups
namespace Sys2Proof.Machine

/-! ## Fields and their ranges (R96, R99, R100) -/

theorem Settings.field_withField_self (b : Settings) {n : Nat} (v : Option Nat) (low : 1 ≤ n) (high : n ≤ 21) :
    (b.withField n v).field n = v := by
  match n with
  | 0 => omega
  | 1 | 2 | 3 | 4 | 5 | 6 | 7 | 8 | 9 | 10 | 11 | 12 | 13 | 14 | 15 | 16 | 17 | 18 | 19 | 20 | 21 => rfl
  | _ + 22 => omega

/-- A field replaced leaves the other fields (R100). -/
theorem Settings.field_withField_ne (b : Settings) {n j : Nat} (v : Option Nat) (h : j ≠ n) :
    (b.withField n v).field j = b.field j := by
  unfold Settings.withField
  split
  case h_22 => rfl
  all_goals
    unfold Settings.field
    split <;> first | rfl | exact absurd rfl h

/-- The ranges of R96, by field number. -/
def fieldRanges : List (Nat × Nat × Nat) :=
  [(1, 100, 20000), (2, 1, 4), (3, 5, 150), (4, 0, 60000), (5, 0, 500), (6, 500, 50000), (7, 1, 4), (8, 5, 150),
    (9, 100, 5000), (10, 100, 60000), (11, 0, 3), (12, 300, 180000), (13, 300, 180000), (14, 300, 180000),
    (15, 5, 300), (16, 100, 300), (17, 60, 3600), (18, 1, 600), (19, 200, 10000), (20, 0, 1), (21, 1, 6)]

/-- A field takes the values of its range, the delays in steps of 10, and a dead time takes 0 as well (R96, R99). -/
theorem fieldAccepts_iff (n v : Nat) :
    fieldAccepts n v = true ↔
      ((12 ≤ n ∧ n ≤ 14) ∧ v = 0) ∨
        ∃ lo hi : Nat, (n, lo, hi) ∈ fieldRanges ∧ lo ≤ v ∧ v ≤ hi ∧ (n = 5 ∨ n = 10 → v % 10 = 0) := by
  match n with
  | 0 => simp [fieldAccepts, fieldRanges]
  | 1 | 2 | 3 | 4 | 6 | 7 | 8 | 9 | 11 | 12 | 13 | 14 | 15 | 16 | 17 | 18 | 19 | 20 | 21 =>
    simp [fieldAccepts, fieldRanges, within]
  | 5 | 10 => simp [fieldAccepts, fieldRanges, within, and_assoc]
  | k + 22 =>
    simp only [fieldAccepts, fieldRanges]
    simp

theorem isDeadTime_iff {n : Nat} : isDeadTime n = true ↔ 12 ≤ n ∧ n ≤ 14 := by
  simp [isDeadTime, within]

/-! ## WRITE SETTING (R97 to R100, R113) -/

theorem find?_of_agree {α : Type} [DecidableEq α] {l : List α} {p q : α → Bool} {g : α} (not : l.find? p ≠ some g)
    (closed : q g = false) (agree : ∀ y : α, y ≠ g → q y = p y) : l.find? q = l.find? p := by
  induction l with
  | nil => rfl
  | cons y l ih =>
    by_cases same : y = g
    · subst same
      have off : p y = false := by
        cases hp : p y with
        | false => rfl
        | true => exact absurd (List.find?_cons_of_pos hp) not
      rw [List.find?_cons_of_neg (p := p) (by simp [off])] at not ⊢
      rw [List.find?_cons_of_neg (p := q) (by simp [closed])]
      exact ih not
    · cases hp : p y with
      | true => rw [List.find?_cons_of_pos hp, List.find?_cons_of_pos (by rw [agree y same, hp])]
      | false =>
        rw [List.find?_cons_of_neg (p := p) (by simp [hp])] at not ⊢
        rw [List.find?_cons_of_neg (p := q) (by simp [agree y same, hp])]
        exact ih not

/-- A group that is not the active one and ends not READY moves no selection (R116). -/
theorem selected_set {groups : FourGroups Group} {w g : GroupId} {x : Group} (h : selected groups w ≠ .group g)
    (state : x.state ≠ .ready) : selected (groups.set g x) w = selected groups w := by
  have same : (climb w).find? (fun y => decide (((groups.set g x).get y).state = .ready)) =
      (climb w).find? (fun y => decide ((groups.get y).state = .ready)) := by
    refine find?_of_agree (g := g) (fun found => h ?_) (by simp [state]) fun y other => ?_
    · unfold selected
      rw [found]
    · rw [FourGroups.get_set_ne _ _ other]
  unfold selected
  rw [same]

/-- Where the selection stands, a group written that is not the active one leaves it (R116, R118). -/
theorem recompute_setGroup {p : Part} {g : GroupId} {x : Group} (stands : SelectionStands p.posture)
    (active : p.posture.active ≠ .group g) (state : x.state ≠ .ready) :
    recompute (setGroup g x p) = setGroup g x p := by
  have activeEq : selected p.posture.groups (wantedGroup p.posture.hotLinePresent p.posture.formed) = p.posture.active :=
    congrArg Posture.active stands
  have selectEq : (setGroup g x p).posture.select = (setGroup g x p).posture := by
    have kept : selected (p.posture.groups.set g x) (wantedGroup p.posture.hotLinePresent p.posture.formed) =
        p.posture.active := by
      rw [selected_set (by rw [activeEq]; exact active) state, activeEq]
    have level : p.posture.formed = p.posture.level := congrArg Posture.level stands
    have wanted : wantedGroup p.posture.hotLinePresent p.posture.formed = p.posture.wanted :=
      congrArg Posture.wanted stands
    change ({ p.posture with
      groups := p.posture.groups.set g x, level := p.posture.formed
      wanted := wantedGroup p.posture.hotLinePresent p.posture.formed
      active := selected (p.posture.groups.set g x) (wantedGroup p.posture.hotLinePresent p.posture.formed) } : Posture) = _
    rw [kept, wanted, level]
    rfl
  rw [recompute_of_same (by rw [selectEq]) (by rw [selectEq]), Part.reselected, selectEq]

theorem askWriteSetting_group (g : GroupId) (field : Byte) (value : Long) (p : Part) :
    askWriteSetting (byte (GroupId.code g)) field value p = writeGroup g field.toNat value.toNat p := by
  unfold askWriteSetting
  rw [targetOf_code]

theorem targetOf_above {n : Nat} (h : 5 < n) : targetOf n = none := by
  match n with
  | 0 | 1 | 2 | 3 | 4 | 5 => omega
  | _ + 6 => rfl

theorem groupOf_above {n : Nat} (h : 4 ≤ n) : groupOf n = none := by
  match n with
  | 0 | 1 | 2 | 3 => omega
  | _ + 4 => rfl

theorem writeGroup_outOfRange {g : GroupId} {n v : Nat} {p : Part} (h : ¬fieldAccepts n v = true) :
    writeGroup g n v p = (p, Reply.bare .outOfRange) := if_pos (by simpa using h)

theorem writeGroup_active {g : GroupId} {n v : Nat} {p : Part} (h : fieldAccepts n v = true)
    (active : p.posture.active = .group g) : writeGroup g n v p = (p, Reply.bare .groupActive) :=
  (if_neg (by simp [h])).trans (if_pos active)

theorem writeGroup_written {g : GroupId} {n v : Nat} {p : Part} (h : fieldAccepts n v = true)
    (active : p.posture.active ≠ .group g) (stands : SelectionStands p.posture) :
    writeGroup g n v p = (raise .settings (setGroup g ((p.posture.groups.get g).written n v) p), Reply.done []) := by
  have unmoved := recompute_setGroup (x := (p.posture.groups.get g).written n v) stands active (by simp [Group.written])
  refine (if_neg (by simp [h])).trans ((if_neg active).trans ?_)
  rw [unmoved]

/-! ## The six checks of CONFIRM GROUP (R103) -/

/-- Check 1 fails at the lowest absent field other than the dead times. -/
theorem lowestAbsent_eq_some {w : Settings} {j : Nat} (needed : 1 ≤ j ∧ j ≤ 21 ∧ ¬(12 ≤ j ∧ j ≤ 14)) (absent : w.field j = none)
    (lowest : ∀ i : Nat, 1 ≤ i ∧ i ≤ 21 ∧ ¬(12 ≤ i ∧ i ≤ 14) → i < j → w.field i ≠ none) : lowestAbsent w = some j := by
  obtain ⟨low, high, notDead⟩ := needed
  refine List.find?_range'_eq_some.mpr ⟨?_, List.mem_range'_1.mpr ⟨low, by omega⟩, fun i hi below => ?_⟩
  · simp [absent, isDeadTime, within]
    omega
  · by_cases dead : 12 ≤ i ∧ i ≤ 14
    · simp [isDeadTime_iff.mpr dead]
    · have present := lowest i ⟨hi, by omega, dead⟩ below
      obtain ⟨x, hx⟩ := Option.ne_none_iff_exists'.mp present
      simp [hx]

theorem lowestAbsent_eq_none {w : Settings} (h : ∀ j : Nat, 1 ≤ j ∧ j ≤ 21 ∧ ¬(12 ≤ j ∧ j ≤ 14) → w.field j ≠ none) :
    lowestAbsent w = none := by
  refine List.find?_range'_eq_none.mpr fun i low high => ?_
  by_cases dead : 12 ≤ i ∧ i ≤ 14
  · simp [isDeadTime_iff.mpr dead]
  · obtain ⟨x, hx⟩ := Option.ne_none_iff_exists'.mp (h i ⟨low, by omega, dead⟩)
    simp [hx]

/-- Check 4 fails at the lowest absent dead time among 1 to the shots. -/
theorem lowestAbsentDeadTime_eq_some {w : Settings} {j : Nat} (dead : 12 ≤ j ∧ j ≤ 14 ∧ j ≤ 11 + w.shots.getD 0)
    (absent : w.field j = none)
    (lowest : ∀ i : Nat, 12 ≤ i ∧ i ≤ 14 ∧ i ≤ 11 + w.shots.getD 0 → i < j → w.field i ≠ none) :
    lowestAbsentDeadTime w = some j := by
  obtain ⟨low, high, used⟩ := dead
  refine List.find?_range'_eq_some.mpr ⟨by simp [absent], List.mem_range'_1.mpr ⟨low, by omega⟩, fun i hi below => ?_⟩
  obtain ⟨x, hx⟩ := Option.ne_none_iff_exists'.mp (lowest i ⟨hi, by omega, by omega⟩ below)
  simp [hx]

theorem lowestAbsentDeadTime_eq_none {w : Settings}
    (h : ∀ j : Nat, 12 ≤ j ∧ j ≤ 14 ∧ j ≤ 11 + w.shots.getD 0 → w.field j ≠ none) : lowestAbsentDeadTime w = none := by
  refine List.find?_range'_eq_none.mpr fun i low high => ?_
  obtain ⟨x, hx⟩ := Option.ne_none_iff_exists'.mp (h i ⟨low, by omega, by omega⟩)
  simp [hx]

/-- The posture of G2 and G3: no shots, no automatic hunt, no cold-load rise (check 5). -/
def Settings.restrained (w : Settings) : Prop := w.shots = some 0 ∧ w.autoHunt = some 0 ∧ w.coldLoadMultiplier = some 100

theorem restrained_iff {w : Settings} (shots : w.shots ≠ none) (autoHunt : w.autoHunt ≠ none)
    (coldLoad : w.coldLoadMultiplier ≠ none) :
    w.restrained ↔
      (decide (w.shots.getD 0 = 0) && decide (w.autoHunt.getD 0 = 0) && decide (w.coldLoadMultiplier.getD 0 = 100)) =
        true := by
  obtain ⟨a, ha⟩ := Option.ne_none_iff_exists'.mp shots
  obtain ⟨b, hb⟩ := Option.ne_none_iff_exists'.mp autoHunt
  obtain ⟨c, hc⟩ := Option.ne_none_iff_exists'.mp coldLoad
  simp [Settings.restrained, ha, hb, hc, and_assoc]

theorem groupCheck_five {g : GroupId} {w : Settings} (present : ∀ j : Nat, 1 ≤ j ∧ j ≤ 21 ∧ ¬(12 ≤ j ∧ j ≤ 14) → w.field j ≠ none)
    (five : ¬(g = .g2 ∨ g = .g3 → w.restrained)) : groupCheck g w = some 5 := by
  rw [restrained_iff (present 11 (by omega)) (present 20 (by omega)) (present 16 (by omega))] at five
  cases g with
  | g0 => simp at five
  | g1 => simp at five
  | g2 => exact if_neg fun restrained => five fun _ => restrained
  | g3 => exact if_neg fun restrained => five fun _ => restrained

theorem groupCheck_six {g : GroupId} {w : Settings} (six : ¬(g = .g1 → w.shots.getD 0 ≤ 1)) : groupCheck g w = some 6 := by
  cases g with
  | g1 => exact if_neg fun few => six fun _ => few
  | g0 => simp at six
  | g2 => simp at six
  | g3 => simp at six

theorem groupCheck_none {g : GroupId} {w : Settings} (present : ∀ j : Nat, 1 ≤ j ∧ j ≤ 21 ∧ ¬(12 ≤ j ∧ j ≤ 14) → w.field j ≠ none)
    (five : g = .g2 ∨ g = .g3 → w.restrained) (six : g = .g1 → w.shots.getD 0 ≤ 1) : groupCheck g w = none := by
  rw [restrained_iff (present 11 (by omega)) (present 20 (by omega)) (present 16 (by omega))] at five
  cases g with
  | g0 => rfl
  | g1 => exact if_pos (six rfl)
  | g2 => exact if_pos (five (.inl rfl))
  | g3 => exact if_pos (five (.inr rfl))

theorem failingCheck_one {g : GroupId} {w : Settings} {j : Nat} (h : lowestAbsent w = some j) :
    failingCheck g w = some (1, j) := by
  simp only [failingCheck, h]

theorem failingCheck_two {g : GroupId} {w : Settings} (one : lowestAbsent w = none)
    (two : ¬(w.highsetLevel.getD 0 = 0 ∨ w.phasePickup.getD 0 < w.highsetLevel.getD 0)) : failingCheck g w = some (2, 0) := by
  simp only [failingCheck, one]
  exact if_pos (by simp; omega)

/-- Check 2 passes. -/
theorem highset_above {w : Settings} (two : w.highsetLevel.getD 0 = 0 ∨ w.phasePickup.getD 0 < w.highsetLevel.getD 0) :
    ¬((decide (w.highsetLevel.getD 0 ≠ 0) && decide (w.highsetLevel.getD 0 ≤ w.phasePickup.getD 0)) = true) := by
  simp
  omega

theorem failingCheck_three {g : GroupId} {w : Settings} (one : lowestAbsent w = none)
    (two : w.highsetLevel.getD 0 = 0 ∨ w.phasePickup.getD 0 < w.highsetLevel.getD 0)
    (three : ¬w.sefPickup.getD 0 < w.earthPickup.getD 0) : failingCheck g w = some (3, 0) := by
  simp only [failingCheck, one]
  rw [if_neg (highset_above two), if_pos (Nat.not_lt.mp three)]

theorem failingCheck_four {g : GroupId} {w : Settings} {j : Nat} (one : lowestAbsent w = none)
    (two : w.highsetLevel.getD 0 = 0 ∨ w.phasePickup.getD 0 < w.highsetLevel.getD 0)
    (three : w.sefPickup.getD 0 < w.earthPickup.getD 0) (four : lowestAbsentDeadTime w = some j) :
    failingCheck g w = some (4, j) := by
  simp only [failingCheck, one, four]
  rw [if_neg (highset_above two), if_neg (Nat.not_le.mpr three)]

theorem failingCheck_of_four {g : GroupId} {w : Settings} (one : lowestAbsent w = none)
    (two : w.highsetLevel.getD 0 = 0 ∨ w.phasePickup.getD 0 < w.highsetLevel.getD 0)
    (three : w.sefPickup.getD 0 < w.earthPickup.getD 0) (four : lowestAbsentDeadTime w = none) :
    failingCheck g w = (groupCheck g w).map fun check => (check, 0) := by
  simp only [failingCheck, one, four]
  rw [if_neg (highset_above two), if_neg (Nat.not_le.mpr three)]

/-! ## CONFIRM GROUP (R102 to R104) -/

theorem askConfirmGroup_code (k : LinkId) (g : GroupId) (p : Part) :
    askConfirmGroup k (byte (GroupId.code g)) p = confirmGroup k g p := by
  unfold askConfirmGroup
  rw [groupOf_code]

theorem queueWrite_queue (w : Write) (k : Option LinkId) (p : Part) :
    (queueWrite w k p).store.queue = p.store.queue ++ [⟨w, k⟩] := by
  unfold queueWrite beginWrite
  dsimp only
  split <;> rfl

/-- The write of a field as R100 gives it. -/
theorem writeSetting_written {k : LinkId} {m : Master} {g : GroupId} {number : Byte} {value : Long} {s : State}
    (h : s.toPart.serves k m) (hm : m ≠ .crew) {b : Settings}
    (base : (((s.toPart.found k m (.writeSetting (byte (GroupId.code g)) number value)).posture).groups.get g).base = b)
    (accepts : fieldAccepts number.toNat value.toNat = true)
    (active : (s.toPart.found k m (.writeSetting (byte (GroupId.code g)) number value)).posture.active ≠ .group g)
    (stands : SelectionStands (s.toPart.found k m (.writeSetting (byte (GroupId.code g)) number value)).posture) :
    let r : Request := .writeSetting (byte (GroupId.code g)) number value
    let p := s.toPart.found k m r
    let old := p.posture.groups.get g
    ∃ w : Settings,
      exec (.writeSetting k (byte (GroupId.code g)) number value) s =
        .next (s.withPart ((raise .settings { p with posture := { p.posture with
          groups := p.posture.groups.set g { old with state := .editing, working := some w } } }).answer k r
          ⟨.done, [], false⟩)) ∧
      (12 ≤ number.toNat ∧ number.toNat ≤ 14 → value = 0 → w.field number.toNat = none) ∧
      (¬((12 ≤ number.toNat ∧ number.toNat ≤ 14) ∧ value = 0) → w.field number.toNat = some value.toNat) ∧
      (∀ j : Nat, j ≠ number.toNat → w.field j = b.field j) := by
  intro r p old
  obtain ⟨low, high⟩ := fieldAccepts_range accepts
  refine ⟨b.withField number.toNat (fieldValue number.toNat value.toNat), ?_, fun dead zero => ?_, fun present => ?_,
    fun j other => Settings.field_withField_ne _ _ other⟩
  · refine exec_command_eq h (r := r) (decide_eq_true hm) ?_
    refine (askWriteSetting_group g number value p).trans ((writeGroup_written accepts active stands).trans ?_)
    rw [← base]
    rfl
  · rw [Settings.field_withField_self _ _ low high]
    exact if_pos (by rw [isDeadTime_iff.mpr dead, zero]; rfl)
  · rw [Settings.field_withField_self _ _ low high]
    refine if_neg fun absent => present ?_
    rw [Bool.and_eq_true, isDeadTime_iff, decide_eq_true_iff] at absent
    exact ⟨absent.1, BitVec.eq_of_toNat_eq absent.2⟩

/-- The record that an EDITING group's checks read (R103). -/
theorem Group.base_of_editing {x : Group} {w : Settings} (editing : x.state = .editing) (working : x.working = some w) :
    x.base = w := by
  simp only [Group.base, editing, working]
  rfl

theorem confirmGroup_fails {k : LinkId} {g : GroupId} {p : Part} {w : Settings} {check number : Nat}
    (editing : (p.posture.groups.get g).state = .editing) (working : (p.posture.groups.get g).working = some w)
    (fails : failingCheck g w = some (check, number)) : confirmGroup k g p = (p, Reply.check check number) := by
  simp only [confirmGroup, editing, Group.base_of_editing editing working, fails]

theorem confirmGroup_passes {k : LinkId} {g : GroupId} {p : Part} {w : Settings}
    (editing : (p.posture.groups.get g).state = .editing) (working : (p.posture.groups.get g).working = some w)
    (passes : failingCheck g w = none) : confirmGroup k g p = confirmed k g w p := by
  simp only [confirmGroup, editing, Group.base_of_editing editing working, passes]

/-- What a confirmed group leaves (R104). -/
theorem confirmed_left {k : LinkId} {g : GroupId} {s : State} {p : Part} (w : Settings) (r : Request) (code : r.code = 15) :
    let q := raise .settings (recompute (queueWrite (.group g (some w)) (some k) (setGroup g ⟨.ready, some w, some w⟩ p)))
    let t := s.withPart (q.answer k r ⟨.done, [0], true⟩)
    t.posture.groups.get g = ⟨.ready, some w, some w⟩ ∧
      t.store.queue = p.store.queue ++ [⟨.group g (some w), some k⟩] ∧
      (∀ x : Master, t.pendingFor x .settings = true) ∧
      (t.links.get k).answer = some ⟨[3, 15, 0, 0], true⟩ ∧
      (∀ h : GroupId, h ≠ g → t.posture.groups.get h = p.posture.groups.get h) := by
  intro q t
  have groups : t.posture.groups = p.posture.groups.set g ⟨.ready, some w, some w⟩ := by
    change q.posture.groups = _
    simp only [q, raise_frame, recompute_posture, Posture.select_groups, queueWrite_frame]
    rfl
  have store : t.store = (queueWrite (.group g (some w)) (some k) (setGroup g ⟨.ready, some w, some w⟩ p)).store := by
    change q.store = _
    simp only [q, raise_frame, recompute_frame]
  refine ⟨by rw [groups, FourGroups.get_set_self], by rw [store, queueWrite_queue]; rfl,
    fun x => raise_pending (by simp) _ x, ?_, fun x other => by rw [groups, FourGroups.get_set_ne _ _ other]⟩
  change ((q.answer k r _).links.get k).answer = _
  rw [answer_get, code]
  rfl

/-- Settles O52. -/
theorem groupsWrittenAndConfirmed : Obligations.GroupsWrittenAndConfirmed := by
  intro k m g s h hm
  refine ⟨fun number value => ?_, fun target number value away => ?_, fun number value => ?_, fun group above => ?_, ?_⟩
  · intro r c p old ranges deadTime accepts begins
    have right : mayRequest m r = true := decide_eq_true hm
    have accepted : fieldAccepts number.toNat value.toNat = true ↔ accepts := by
      rw [fieldAccepts_iff]
      have zero : value = 0 ↔ value.toNat = 0 := ⟨fun h => by rw [h]; rfl, fun h => BitVec.eq_of_toNat_eq h⟩
      have five : number = 5 ↔ number.toNat = 5 := ⟨fun h => by rw [h]; rfl, fun h => BitVec.eq_of_toNat_eq h⟩
      have ten : number = 10 ↔ number.toNat = 10 := ⟨fun h => by rw [h]; rfl, fun h => BitVec.eq_of_toNat_eq h⟩
      simp only [accepts, deadTime, zero, five, ten]
      rfl
    refine ⟨fun b begun accept active stands => ?_, fun accept active => ?_, fun refuse => ?_⟩
    · have base : old.base = b := by
        rcases begun with ⟨state, rfl⟩ | ⟨state, working⟩ | ⟨state, image⟩
        · simp only [Group.base, state]
          rfl
        · simp only [Group.base, state, working]
          rfl
        · simp only [Group.base, state, image]
          rfl
      exact writeSetting_written h hm base (accepted.mpr accept) active stands
    · exact exec_command_eq h (r := r) right
        ((askWriteSetting_group g number value p).trans (writeGroup_active (accepted.mpr accept) active))
    · exact exec_command_eq h (r := r) right
        ((askWriteSetting_group g number value p).trans (writeGroup_outOfRange (mt accepted.mp refuse)))
  · intro r
    refine exec_command_eq h (r := r) (decide_eq_true hm) ?_
    change askWriteSetting target number value _ = _
    unfold askWriteSetting
    rcases away with rfl | above
    · rfl
    · rw [targetOf_above above]
      rfl
  · intro r c p
    have right : mayRequest m r = true := decide_eq_true hm
    have one : number = 1 ↔ number.toNat = 1 := ⟨fun h => by rw [h]; rfl, fun h => BitVec.eq_of_toNat_eq h⟩
    refine ⟨fun isOne low high => exec_command_eq h (r := r) right ?_, fun away => exec_command_eq h (r := r) right ?_⟩
    · exact if_pos (by rw [Bool.and_eq_true, decide_eq_true_iff]; exact ⟨one.mp isOne, by simp [within, low, high]⟩)
    · refine if_neg fun taken => ?_
      rw [Bool.and_eq_true, decide_eq_true_iff] at taken
      obtain ⟨isOne, inRange⟩ := taken
      simp only [within, Bool.and_eq_true, decide_eq_true_iff] at inRange
      rcases away with other | zero | above
      · exact other (one.mpr isOne)
      · omega
      · omega
  · intro r
    refine exec_command_eq h (r := r) (decide_eq_true hm) ?_
    change askConfirmGroup k group _ = _
    unfold askConfirmGroup
    rw [groupOf_above above]
    rfl
  · intro r c p old
    have right : mayRequest m r = true := decide_eq_true hm
    have asked : ownerTakes k m r p = confirmGroup k g p := askConfirmGroup_code k g p
    refine ⟨fun empty => exec_command_eq h (r := r) right (asked.trans ?_),
      fun ready => exec_command_eq h (r := r) right (asked.trans ?_), fun w editing working => ?_⟩
    · simp only [confirmGroup, show (p.posture.groups.get g).state = .empty from empty]
      rfl
    · simp only [confirmGroup, show (p.posture.groups.get g).state = .ready from ready]
      rfl
    intro failed needed dead one two three four five six
    have fails : ∀ check number : Nat, failingCheck g w = some (check, number) → failed check number :=
      fun check number fail => exec_command_eq h (r := r) right (asked.trans (confirmGroup_fails editing working fail))
    refine ⟨fun j need absent lowest => fails _ _ (failingCheck_one (lowestAbsent_eq_some need absent lowest)),
      fun h1 h2 => fails _ _ (failingCheck_two (lowestAbsent_eq_none h1) h2),
      fun h1 h2 h3 => fails _ _ (failingCheck_three (lowestAbsent_eq_none h1) h2 h3),
      fun j h1 h2 h3 isDead absent lowest => fails _ _
        (failingCheck_four (lowestAbsent_eq_none h1) h2 h3 (lowestAbsentDeadTime_eq_some isDead absent lowest)),
      fun h1 h2 h3 h4 h5 => fails _ _ ?_, fun h1 h2 h3 h4 h6 => fails _ _ ?_, fun h1 h2 h3 h4 h5 h6 => ?_⟩
    · rw [failingCheck_of_four (lowestAbsent_eq_none h1) h2 h3 (lowestAbsentDeadTime_eq_none h4), groupCheck_five h1 h5]
      rfl
    · rw [failingCheck_of_four (lowestAbsent_eq_none h1) h2 h3 (lowestAbsentDeadTime_eq_none h4), groupCheck_six h6]
      rfl
    · have passes : failingCheck g w = none := by
        rw [failingCheck_of_four (lowestAbsent_eq_none h1) h2 h3 (lowestAbsentDeadTime_eq_none h4), groupCheck_none h1 h5 h6]
        rfl
      have run := exec_command_eq h (r := r) right (asked.trans (confirmGroup_passes editing working passes))
      obtain ⟨group, queue, pending, answer, others⟩ := confirmed_left (k := k) (g := g) (s := s) (p := p) w r rfl
      exact ⟨_, run, group, queue, pending, answer, others, rfl⟩

end Sys2Proof.Machine
end Groups

/-! SUPPORT. The section table written and confirmed (07_earth_fault_hunt.md, R123, R124). -/

section Sections
namespace Sys2Proof.Machine

/-! ## WRITE SECTION (R123) -/

theorem writeHeader_outOfRange {n timeout : Nat} {p : Part} (h : n = 0 ∨ 15 < n ∨ timeout < 30) :
    writeHeader n timeout p = (p, Reply.bare .outOfRange) :=
  if_pos (by simp [within]; omega)

theorem writeHeader_hunting {n timeout : Nat} {p : Part} (low : 1 ≤ n) (high : n ≤ 15) (long : 30 ≤ timeout)
    (hunting : p.hunt.state.running = true) : writeHeader n timeout p = (p, Reply.wrong .huntRunning) :=
  (if_neg (by simp [within]; omega)).trans (if_pos hunting)

theorem writeHeader_written {n timeout : Nat} {p : Part} (low : 1 ≤ n) (high : n ≤ 15) (long : 30 ≤ timeout)
    (still : p.hunt.state.running = false) :
    writeHeader n timeout p =
      ({ p with table := p.table.withHeader n (min timeout 600) }, Reply.done (byte n :: bytes2 (min timeout 600))) :=
  (if_neg (by simp [within]; omega)).trans (if_neg (by simp [still]))

theorem writeEntry_outOfRange {k ident operable : Nat} {p : Part} (h : 254 < ident ∨ 1 < operable) :
    writeEntry k ident operable p = (p, Reply.bare .outOfRange) :=
  if_pos (by simpa using h)

theorem writeEntry_hunting {k ident operable : Nat} {p : Part} (known : ident ≤ 254) (flag : operable ≤ 1)
    (hunting : p.hunt.state.running = true) : writeEntry k ident operable p = (p, Reply.wrong .huntRunning) :=
  (if_neg (by simp; omega)).trans (if_pos hunting)

theorem writeEntry_written {k ident operable : Nat} {p : Part} (known : ident ≤ 254) (flag : operable ≤ 1)
    (still : p.hunt.state.running = false) :
    writeEntry k ident operable p =
      ({ p with table := p.table.withEntry k ident (operable = 1) }, Reply.done (byte ident :: bytes2 operable)) :=
  (if_neg (by simp; omega)).trans (if_neg (by simp [still]))

theorem askWriteSection_header {first : Byte} {second : Half} {p : Part} :
    askWriteSection 0 first second p = writeHeader first.toNat second.toNat p := rfl

theorem askWriteSection_entry {target first : Byte} {second : Half} {p : Part} (low : 1 ≤ target.toNat)
    (high : target.toNat ≤ 15) :
    askWriteSection target first second p = writeEntry target.toNat first.toNat second.toNat p :=
  (if_neg (by omega)).trans (if_pos high)

theorem askWriteSection_beyond {target first : Byte} {second : Half} {p : Part} (h : 15 < target.toNat) :
    askWriteSection target first second p = (p, Reply.bare .outOfRange) :=
  (if_neg (by omega)).trans (if_neg (by omega))

/-- A position written, with the operands as the wire carries them. -/
theorem withEntry_operands (t : SectionTable) (k : Nat) (first : Byte) (second : Half) :
    t.withEntry k first.toNat (second.toNat = 1) =
      { t.base with
        state := .editing
        switches := t.base.switches.set (k - 1)
          ⟨if first = 0 then none else some first.toNat, decide (second = 1), .unknown⟩ } := by
  have zero : first.toNat = 0 ↔ first = 0 := ⟨fun h => BitVec.eq_of_toNat_eq h, fun h => by rw [h]; rfl⟩
  have one : second.toNat = 1 ↔ second = 1 := ⟨fun h => BitVec.eq_of_toNat_eq h, fun h => by rw [h]; rfl⟩
  simp only [SectionTable.withEntry, zero, one]

/-! ## CONFIRM SECTIONS (R124) -/

theorem SectionTable.failingCheck_of_unset {t : SectionTable} (h : t.n = none) : t.failingCheck = some (1, 0) := by
  simp only [failingCheck, h]

/-- Check 2 fails at the lowest position in use without an identity. -/
theorem SectionTable.failingCheck_of_unnamed {t : SectionTable} {n j : Nat} (set : t.n = some n) (low : 1 ≤ j) (used : j ≤ n)
    (unnamed : (t.switch j).ident = none) (lowest : ∀ i : Nat, 1 ≤ i → i < j → (t.switch i).ident ≠ none) :
    t.failingCheck = some (2, j) := by
  have found : t.lowestUnnamed = some j := by
    unfold lowestUnnamed positions
    rw [set]
    refine List.find?_range'_eq_some.mpr ⟨by simp [unnamed], List.mem_range'_1.mpr ⟨low, by simp; omega⟩, fun i hi below => ?_⟩
    obtain ⟨x, hx⟩ := Option.ne_none_iff_exists'.mp (lowest i hi below)
    simp [hx]
  simp only [failingCheck, set, found]

theorem SectionTable.repeats_iff {t : SectionTable} {j : Nat} :
    t.repeats j = true ↔ ∃ i : Nat, 1 ≤ i ∧ i < j ∧ (t.switch i).ident = (t.switch j).ident := by
  unfold repeats
  rw [List.any_eq_true]
  constructor
  · rintro ⟨i, mem, same⟩
    obtain ⟨low, high⟩ := List.mem_range'_1.mp mem
    exact ⟨i, low, by omega, of_decide_eq_true same⟩
  · rintro ⟨i, low, below, same⟩
    exact ⟨i, List.mem_range'_1.mpr ⟨low, by omega⟩, decide_eq_true same⟩

theorem SectionTable.failingCheck_of_named {t : SectionTable} {n : Nat} (set : t.n = some n)
    (named : ∀ j : Nat, 1 ≤ j → j ≤ n → (t.switch j).ident ≠ none) :
    t.failingCheck = t.lowestRepeat.map fun k => (3, k) := by
  have found : t.lowestUnnamed = none := by
    unfold lowestUnnamed positions
    rw [set]
    refine List.find?_range'_eq_none.mpr fun i low high => ?_
    obtain ⟨x, hx⟩ := Option.ne_none_iff_exists'.mp (named i low (by simp at high; omega))
    simp [hx]
  simp only [failingCheck, set, found]

/-- Check 3 fails at the lowest position in use whose identity stands at a lower one. -/
theorem SectionTable.lowestRepeat_eq_some {t : SectionTable} {n i j : Nat} (set : t.n = some n) (low : 1 ≤ i) (below : i < j)
    (used : j ≤ n) (same : (t.switch i).ident = (t.switch j).ident)
    (lowest : ∀ a b : Nat, 1 ≤ a → a < b → b < j → (t.switch a).ident ≠ (t.switch b).ident) :
    t.lowestRepeat = some j := by
  unfold lowestRepeat positions
  rw [set]
  refine List.find?_range'_eq_some.mpr ⟨repeats_iff.mpr ⟨i, low, below, same⟩,
    List.mem_range'_1.mpr ⟨by omega, by simp; omega⟩, fun b _ hb => ?_⟩
  rw [Bool.not_eq_true', Bool.eq_false_iff]
  intro again
  obtain ⟨a, ha, hab, eq⟩ := repeats_iff.mp again
  exact lowest a b ha hab hb eq

theorem SectionTable.lowestRepeat_eq_none {t : SectionTable} {n : Nat} (set : t.n = some n)
    (distinct : ∀ a b : Nat, 1 ≤ a → a < b → b ≤ n → (t.switch a).ident ≠ (t.switch b).ident) : t.lowestRepeat = none := by
  unfold lowestRepeat positions
  rw [set]
  refine List.find?_range'_eq_none.mpr fun b _ hb => ?_
  rw [Bool.not_eq_true', Bool.eq_false_iff]
  intro again
  obtain ⟨a, ha, hab, eq⟩ := repeats_iff.mp again
  exact distinct a b ha hab (by simp at hb; omega) eq

theorem askConfirmSections_fails {k : LinkId} {p : Part} {check position : Nat} (editing : p.table.state = .editing)
    (fails : p.table.failingCheck = some (check, position)) :
    askConfirmSections k p = (p, Reply.check check position) := by
  simp only [askConfirmSections, editing, fails]

theorem askConfirmSections_passes {k : LinkId} {p : Part} (editing : p.table.state = .editing)
    (passes : p.table.failingCheck = none) : askConfirmSections k p = sectionsConfirmed k p := by
  simp only [askConfirmSections, editing, passes]

/-- Settles O53. -/
theorem sectionTableWrittenAndConfirmed : Obligations.SectionTableWrittenAndConfirmed := by
  intro k s h
  refine ⟨fun target first second => ?_, ?_⟩
  · intro r c p
    have zero : target = 0 ↔ target.toNat = 0 := ⟨fun h => by rw [h]; rfl, fun h => BitVec.eq_of_toNat_eq h⟩
    have firstZero : first = 0 ↔ first.toNat = 0 := ⟨fun h => by rw [h]; rfl, fun h => BitVec.eq_of_toNat_eq h⟩
    have firstTop : first = 255 ↔ first.toNat = 255 := ⟨fun h => by rw [h]; rfl, fun h => BitVec.eq_of_toNat_eq h⟩
    have run : ∀ {q : Part} {reply : Reply}, askWriteSection target first second p = (q, reply) →
        exec c s = .next (s.withPart (q.answer k r reply)) := fun taken => exec_command_eq h (r := r) rfl taken
    refine ⟨fun header low high long still => ?_, fun low high known flag still => ?_, fun outside => run ?_,
      fun inside hunting => run ?_⟩
    · subst header
      rw [run (writeHeader_written low high long still), byte_toNat]
      rfl
    · rw [run ((askWriteSection_entry low high).trans (writeEntry_written known flag still)), withEntry_operands,
        byte_toNat]
      rfl
    · rcases outside with ⟨rfl, wrong⟩ | ⟨low, high, wrong⟩ | beyond
      · exact writeHeader_outOfRange (wrong.imp_left firstZero.mp)
      · exact (askWriteSection_entry low high).trans
          (writeEntry_outOfRange (wrong.imp_left fun top => by rw [firstTop.mp top]; decide))
      · exact askWriteSection_beyond beyond
    · rcases inside with ⟨rfl, low, high, long⟩ | ⟨low, high, known, flag⟩
      · exact writeHeader_hunting low high long hunting
      · exact (askWriteSection_entry low high).trans (writeEntry_hunting known flag hunting)
  · intro p ident failed
    have run : ∀ {q : Part} {reply : Reply}, askConfirmSections k p = (q, reply) →
        exec (.confirmSections k) s = .next (s.withPart (q.answer k .confirmSections reply)) :=
      fun taken => exec_command_eq h (r := .confirmSections) rfl taken
    have fails : ∀ check position : Nat, p.table.state = .editing → p.table.failingCheck = some (check, position) →
        failed (byte check) (byte position) := fun _ _ editing fail => run (askConfirmSections_fails editing fail)
    refine ⟨fun ready => run ?_, fun empty => run ?_, fun editing passes => run (askConfirmSections_passes editing passes),
      fun editing unset => fails 1 0 editing (SectionTable.failingCheck_of_unset unset), fun n editing set => ⟨fun j low used unnamed lowest =>
        fails 2 j editing (SectionTable.failingCheck_of_unnamed set low used unnamed lowest), fun named => ⟨fun i j low below used same lowest =>
          fails 3 j editing ?_, fun distinct => ?_⟩⟩⟩
    · simp only [askConfirmSections, ready]
      rfl
    · simp only [askConfirmSections, empty]
      rfl
    · rw [SectionTable.failingCheck_of_named set named, SectionTable.lowestRepeat_eq_some set low below used same lowest]
      rfl
    · rw [SectionTable.failingCheck_of_named set named, SectionTable.lowestRepeat_eq_none set distinct]
      rfl

end Sys2Proof.Machine
end Sections

/-! SUPPORT. The placement of a new HOT_LINE (05_reclose_blocks.md, R84): what it is handed on to before its entry joins the
list. -/

section HotLine
namespace Sys2Proof.Machine

/-! ## A recomputation that nobody acts on -/

/-- With no hunt running and the Sequencer at rest, a recomputation moves the selection and the cold-load window alone. -/
theorem recompute_of_resting {p : Part} (deadTime : p.seq.state ≠ .deadTime) (closeWait : p.seq.state ≠ .closeWait)
    (reclaim : p.seq.state ≠ .reclaim) (noHunt : p.hunt.state.running = false) :
    ∃ coldLoad : Option Nat,
      recompute p =
        { p with
          posture := p.posture.select, elements := { p.elements with coldLoad := coldLoad }
          notices := (recompute p).notices } ∧
      ∀ (m : Master) (k : NoticeKind), p.pendingFor m k = true → (recompute p).pendingFor m k = true := by
  have level : announceLevel p.reselected = p.reselected := by
    have seq : seqLevelChanged p.reselected = p.reselected := if_neg (by simp [Part.reselected, deadTime, closeWait])
    have hunt : abandonIfRunning .fireBan none emptyCall p.reselected = p.reselected :=
      if_neg (by simp [Part.reselected, noHunt])
    rw [announceLevel, seq, huntLevelChanged, hunt, ite_self]
  have settings : announceSettings p.reselected = p.settingsTaken := by
    rw [announceSettings, elementsSettings_eq]
    exact seqSettingsChanged_of_resting (p := p.settingsTaken) deadTime closeWait reclaim
  by_cases moved : p.posture.select.level = p.posture.level
  · by_cases active : p.posture.select.active = p.posture.active
    · refine ⟨p.elements.coldLoad, ?_, fun m k h => ?_⟩
      · rw [recompute_of_same moved active]
        rfl
      · rw [recompute_of_same moved active]
        exact h
    · have eq := recompute_of_settings_moved active (.inl moved)
      rw [seqSettingsChanged_of_resting (p := p.settingsTaken) deadTime closeWait reclaim] at eq
      rw [eq]
      exact ⟨_, raise_eq _ _, fun m k h => raise_kept _ _ _ _ h⟩
  · have eq := recompute_of_level_moved moved
    rw [level, settings] at eq
    rw [eq]
    by_cases active : p.posture.select.active = p.posture.active
    · rw [if_pos active]
      exact ⟨_, raise_eq _ _, fun m k h => raise_kept _ _ _ _ h⟩
    · rw [if_neg active]
      exact ⟨_, raise_eq _ _, fun m k h => raise_kept _ _ _ _ h⟩

/-! ## The entry joins the list (R84, items 4 to 7) -/

theorem hotLineCount_eq_zero {l : List BlockEntry} : hotLineCount l = 0 ↔ ∀ e ∈ l, e.kind ≠ .hotLine := by
  simp [hotLineCount]

/-- A new HOT_LINE is placed on the part that its placement was handed on to. -/
theorem exec_placeBlock_newHotLine {k : LinkId} {m : Master} {reason : Byte} {n : SlotId} {s : State}
    (h : s.toPart.serves k m) (hm : m ≠ .bay)
    (room : masterCount (s.toPart.found k m (.placeBlock 0 reason 0)).entries < 5)
    (new : findEntry (s.toPart.found k m (.placeBlock 0 reason 0)).entries .hotLine (.master m) reason = none) {q : Part}
    (handed : handPlacement .hotLine (s.toPart.found k m (.placeBlock 0 reason 0)) = q)
    (slot : freeSlot q.entries = some n)
    (first : (∀ e ∈ q.entries, e.kind ≠ .hotLine) ↔
      ∀ e ∈ (s.toPart.found k m (.placeBlock 0 reason 0)).entries, e.kind ≠ .hotLine) :
    let r : Request := .placeBlock 0 reason 0
    let p := s.toPart.found k m r
    let joined : Part :=
      { q with entries := q.entries ++ [⟨.hotLine, .master m, reason, p.uptime, none, none, some n⟩] }
    exec (.placeBlock k 0 reason 0) s =
      .next (s.withPart ((raise .blocks
        (queueWrite (.slot n (some ⟨.hotLine, .master m, reason⟩)) (some k)
          (if ∀ e ∈ p.entries, e.kind ≠ .hotLine then
            recompute { joined with posture := { q.posture with hotLinePresent := true } }
          else joined))).answer k r ⟨.done, [0, 0, 0], true⟩)) := by
  intro r p joined
  have clock : q.clock = p.clock := by
    rw [← handed]
    simp [p, r]
  have uptime : q.uptime = p.uptime := by
    unfold Part.uptime
    rw [clock]
  have made : q.newEntry .hotLine m reason none = ⟨.hotLine, .master m, reason, p.uptime, none, none, some n⟩ := by
    rw [← slot, ← uptime]
    rfl
  have joins : joinEntry ⟨.hotLine, .master m, reason, p.uptime, none, none, some n⟩ q =
      if ∀ e ∈ p.entries, e.kind ≠ .hotLine then
        recompute { joined with posture := { q.posture with hotLinePresent := true } }
      else joined := by
    unfold joinEntry
    by_cases none : ∀ e ∈ p.entries, e.kind ≠ .hotLine
    · rw [if_pos none]
      exact if_pos (by simpa using hotLineCount_eq_zero.mpr (first.mpr none))
    · rw [if_neg none]
      refine if_neg fun zero => none (first.mp (hotLineCount_eq_zero.mp ?_))
      simpa using zero
  have placed : askPlaceBlock k m 0 reason 0 p =
      (raise .blocks (queueWrite (.slot n (some ⟨.hotLine, .master m, reason⟩)) (some k)
        (joinEntry ⟨.hotLine, .master m, reason, p.uptime, none, none, some n⟩ q)), ⟨.done, [0, 0, 0], true⟩) := by
    refine (askPlaceBlock_hotLine hm).trans ((placeKind_new (fun _ => rfl) new room).trans ?_)
    unfold placeNew
    dsimp only
    rw [handed]
    change (joinAndStore k (q.newEntry .hotLine m reason none) q, _) = _
    rw [made]
    rfl
  rw [← joins]
  exact exec_command_eq h (r := r) rfl placed

/-! ## What the placement is handed on to (R84, items 1 to 3) -/

/-- With no close order in progress and no hunt running the Sequencer alone is told (R51, R67, R145). -/
theorem handPlacement_hotLine_of_no_hunt {p : Part} (order : p.mech.order ≠ .close) (noHunt : p.hunt.state.running = false) :
    handPlacement .hotLine p = seqBlockPlaced .hotLine p := by
  have released : hotLineRelease p = p := if_neg order
  have still : (seqBlockPlaced .hotLine p).hunt.state.running ≠ true := by simp [noHunt]
  simp only [handPlacement, released]
  exact if_neg still

/-- On the stroke of the Sequencer's close the close is released and the Sequencer locks out (R51, R64). -/
theorem handPlacement_hotLine_of_stroke {p : Part} (order : p.mech.order = .close) (placer : p.mech.placer = some .sequencer)
    (state : p.seq.state = .closing) (noHunt : p.hunt.state.running = false) :
    handPlacement .hotLine p = enterLockout .blocked (closeEnded (endOrder p)) := by
  have released : hotLineRelease p = enterLockout .blocked (closeEnded (endOrder p)) := by
    refine (if_pos order).trans ?_
    rw [placer]
    exact if_pos state
  have locked : (enterLockout .blocked (closeEnded (endOrder p))).seq.state = .lockout := by
    rw [enterLockout_eq]
    rfl
  have told : seqBlockPlaced .hotLine (enterLockout .blocked (closeEnded (endOrder p))) =
      enterLockout .blocked (closeEnded (endOrder p)) :=
    seqBlockPlaced_of_not_reclosing (by decide) (by rw [locked]; decide) (by rw [locked]; decide)
  have still : (enterLockout .blocked (closeEnded (endOrder p))).hunt.state.running ≠ true := by
    rw [enterLockout_eq]
    change p.hunt.state.running ≠ true
    simp [noHunt]
  simp only [handPlacement, released, told]
  exact if_neg still

/-- The part once a close order on its stroke has been released (R51). -/
def Part.strokeEnded (p : Part) : Part := if p.mech.order = .close then closeEnded (endOrder p) else p

theorem strokeEnded_eq (p : Part) :
    p.strokeEnded =
      { p with
        mech :=
          if decide (p.mech.order = .close) = true then
            { p.mech with
              order := .none, placer := none, orderTimer := none, tripOutput := false, closeOutput := false
              travelTimer := if p.position = .travel then some (p.clock + 300) else p.mech.travelTimer }
          else p.mech
        elements :=
          { p.elements with
            closeKind := if decide (p.mech.order = .close) = true then .none else p.elements.closeKind
            mode := if decide (p.mech.order = .close) = true then .normal else p.elements.mode } } := by
  unfold Part.strokeEnded
  by_cases stroke : p.mech.order = .close
  · simp only [if_pos stroke, decide_eq_true stroke, if_true]
    rfl
  · simp only [if_neg stroke, decide_eq_false stroke]
    rfl

theorem strokeEnded_order {p : Part} (h : p.mech.order ≠ .trip) : p.strokeEnded.mech.order = .none := by
  unfold Part.strokeEnded
  split
  next => rfl
  next other =>
    cases order : p.mech.order with
    | none => rfl
    | trip => exact absurd order h
    | close => exact absurd order other

theorem strokeEnded_position (p : Part) : p.strokeEnded.position = p.position := by
  unfold Part.strokeEnded
  split <;> rfl

/-- A running hunt is abandoned by the placement, its own close released first (R51, R145). -/
theorem handPlacement_hotLine_of_held {p : Part} (running : p.hunt.state.running = true) (held : p.seq.state = .huntHeld)
    (own : p.mech.order = .close → p.mech.placer = some .hunt)
    (rests : (abandon .hotLine none emptyCall p.strokeEnded).seq.state ≠ .deadTime ∧
      (abandon .hotLine none emptyCall p.strokeEnded).seq.state ≠ .closeWait)
    (still : (abandon .hotLine none emptyCall p.strokeEnded).hunt.state.running = false) :
    handPlacement .hotLine p = abandon .hotLine none emptyCall p.strokeEnded := by
  by_cases stroke : p.mech.order = .close
  · have released : hotLineRelease p = abandon .hotLine none emptyCall p.strokeEnded := by
      refine (if_pos stroke).trans ?_
      rw [own stroke, Part.strokeEnded, if_pos stroke]
      exact if_pos running
    simp only [handPlacement, released, seqBlockPlaced_of_not_reclosing (by decide : BlockKind.hotLine ≠ .mechanism) rests.1 rests.2]
    exact if_neg (by simp [still])
  · have released : hotLineRelease p = p := if_neg stroke
    have told : seqBlockPlaced .hotLine p = p :=
      seqBlockPlaced_of_not_reclosing (by decide) (by simp [held]) (by simp [held])
    simp only [handPlacement, released, told, Part.strokeEnded, if_neg stroke]
    exact if_pos running

/-- With the breaker OPEN the abandoned hunt hands it back in LOCKOUT (R146, item 6). -/
theorem abandon_hotLine_opened {p : Part} (order : p.mech.order ≠ .trip) (opened : p.position = .opened)
    (sound : p.seq.failureNoted = false) :
    ∃ notices : PerMaster MasterNotices,
      abandon .hotLine none emptyCall p.strokeEnded =
        { p.strokeEnded with
          hunt := p.hunt.abandonedBy .hotLine none p.hunt.handBackPending, entries := p.entriesLeft
          elements := { p.strokeEnded.elements with mode := .normal }, seq := p.seq.lockedOut .huntEnd
          notices := notices } ∧
      RaisedSince p (abandon .hotLine none emptyCall p.strokeEnded) [.huntEnd, .lockout] := by
  have none' : p.strokeEnded.mech.order = .none := strokeEnded_order order
  have spec : HuntAbandoned .hotLine none {} none p.strokeEnded (abandon .hotLine none emptyCall p.strokeEnded) :=
    abandon_spec none {} none (by simp) (by rw [strokeEnded_eq]; exact sound) (by simp [none'])
  obtain ⟨eq, raised⟩ := spec.handedBack ((strokeEnded_position p).trans opened) (by simp [none'])
  refine ⟨(abandon .hotLine none emptyCall p.strokeEnded).notices, eq.trans ?_, raised.mono fun m k h => ?_⟩
  · rw [strokeEnded_eq]
    rfl
  · rw [strokeEnded_eq]
    exact h

/-- An abandonment with the breaker not OPEN and no order in progress places the Hunt's trip (R146, item 7; R143). -/
theorem abandon_trips_left {reason : HuntReason} (detail : Option HuntDetail) (c : TripCall) {p : Part}
    (other : reason ≠ .mechanism) (notOpen : p.position ≠ .opened) (order : p.mech.order = .none) :
    ∃ notices : PerMaster MasterNotices,
      abandon reason detail c p =
        { p with
          hunt := p.hunt.abandonedBy reason detail true, entries := p.entriesLeft
          mech :=
            { p.mech with
              order := .trip, placer := some .hunt, orderTimer := some (p.clock + 200), tripOutput := true
              travelTimer := none }
          elements := { p.elements with episode := none }
          records :=
            { ring :=
                (p.newRecord ⟨.hunt, c.causes, c.requester, c.highsetLanes, c.sotfLanes, 0⟩ :: p.records.ring).take 16
              next := nextNumber p.records.next, pendingRecord := some p.records.next }
          notices := notices } ∧
      RaisedSince p (abandon reason detail c p) [.huntEnd, .trip, .record] := by
  rw [abandon_trips detail c other notOpen order]
  obtain ⟨-, begun⟩ := abandonStart_left reason detail p
  obtain ⟨started, hs⟩ : ∃ started : Part, started =
      { p with
        hunt := p.hunt.abandonedBy reason detail true, entries := p.entriesLeft
        notices := (abandonStart reason detail p).notices } := ⟨_, rfl⟩
  have raisedStart : RaisedSince p started [.huntEnd] := begun.congr (by rw [hs])
  rw [← hs]
  obtain ⟨eq, raised⟩ := huntTrip_eq c (p := started) (by rw [hs]; exact notOpen) (by rw [hs]; exact order)
  refine ⟨(huntTrip c started).1.notices, (congrArg Prod.fst eq).trans ?_, fun k hk m => ?_, fun m k h => ?_⟩
  · rw [hs]
    rfl
  · rcases List.mem_cons.1 hk with rfl | hk
    · exact raised.2 m _ (raisedStart.1 _ (by simp) m)
    · exact raised.1 k hk m
  · exact raised.2 m k (raisedStart.2 m k h)

/-- With the breaker not OPEN the Hunt's trip is placed once its close has been released (R146, item 7). -/
theorem abandon_hotLine_trips {p : Part} (order : p.mech.order ≠ .trip) (notOpen : p.position ≠ .opened) :
    ∃ (f : FaultRecord) (notices : PerMaster MasterNotices),
      abandon .hotLine none emptyCall p.strokeEnded =
        { p.strokeEnded with
          hunt := p.hunt.abandonedBy .hotLine none true, entries := p.entriesLeft
          mech :=
            { p.strokeEnded.mech with
              order := .trip, placer := some .hunt, orderTimer := some (p.clock + 200), tripOutput := true
              travelTimer := none }
          elements := { p.strokeEnded.elements with episode := none }
          records :=
            { ring := (f :: p.records.ring).take 16, next := nextNumber p.records.next
              pendingRecord := some p.records.next }
          notices := notices } ∧
      HuntRecord p {} none f ∧ f.outcome = .pending ∧
      RaisedSince p (abandon .hotLine none emptyCall p.strokeEnded) [.huntEnd, .trip, .record] := by
  obtain ⟨notices, eq, raised⟩ := abandon_trips_left (reason := .hotLine) none emptyCall (p := p.strokeEnded) (by simp)
    (by rw [strokeEnded_position]; exact notOpen) (strokeEnded_order order)
  refine ⟨p.strokeEnded.newRecord ⟨.hunt, {}, none, noPhases, noLanes, 0⟩, notices, eq.trans ?_, ?_, rfl, raised.mono fun m k h => ?_⟩
  · rw [strokeEnded_eq]
    rfl
  · rw [strokeEnded_eq]
    exact ⟨rfl, rfl, rfl, rfl, ⟨rfl, rfl⟩, rfl, rfl, rfl⟩
  · rw [strokeEnded_eq]
    exact h

/-- The first HOT_LINE on the stroke of the Sequencer's close (R84, R51, R64, R116). -/
theorem hotLine_placed_on_stroke {k : LinkId} {m : Master} {reason : Byte} {n : SlotId} {s : State}
    (h : s.toPart.serves k m) (hm : m ≠ .bay) :
    let p := s.toPart.found k m (.placeBlock 0 reason 0)
    masterCount p.entries < 5 → p.mech.order = .close → p.mech.placer = some .sequencer → p.seq.state = .closing →
    p.hunt.state.running = false → (∀ e ∈ p.entries, e.kind ≠ .hotLine) → freeSlot p.entries = some n →
      ∃ t : State, exec (.placeBlock k 0 reason 0) s = .next t ∧
        t.mech.closeOutput = false ∧ t.mech.tripOutput = false ∧ t.mech.order = .none ∧ t.mech.orderTimer = none ∧
        t.seq.state = .lockout ∧ t.seq.lockoutReason = some .blocked ∧
        t.entries = p.entries ++ [⟨.hotLine, .master m, reason, p.uptime, none, none, some n⟩] ∧
        t.posture.hotLinePresent = true ∧ (t.posture.active = .group .g3 ∨ t.posture.active = .fallback) ∧
        t.store.queue = p.store.queue ++ [⟨.slot n (some ⟨.hotLine, .master m, reason⟩), some k⟩] ∧
        (∀ x : Master, t.pendingFor x .blocks = true ∧ t.pendingFor x .lockout = true) ∧
        (t.links.get k).answer = some ⟨[5, 10, 0, 0, 0, 0], true⟩ ∧
        t.elements.closeKind = .none ∧ t.records = p.records ∧ t.hunt = p.hunt ∧ t.intake = p.intake := by
  intro p room order placer state noHunt none slot
  have handed := handPlacement_hotLine_of_stroke order placer state noHunt
  have locked := enterLockout_eq .blocked (closeEnded (endOrder p))
  have raised := enterLockout_raised .blocked (closeEnded (endOrder p))
  obtain ⟨q, hq⟩ : ∃ q : Part, enterLockout .blocked (closeEnded (endOrder p)) = q := ⟨_, rfl⟩
  rw [hq] at handed locked raised
  have entries : q.entries = p.entries := by rw [locked]; rfl
  have run := exec_placeBlock_newHotLine h hm room
    (findEntry_eq_none fun e he hk => none e he hk.1) handed (by rw [entries]; exact slot) (by rw [entries])
  dsimp only at run
  rw [if_pos none] at run
  obtain ⟨joined, hj⟩ : ∃ joined : Part, joined =
      { q with
        entries := q.entries ++ [⟨.hotLine, .master m, reason, p.uptime, Option.none, Option.none, some n⟩]
        posture := { q.posture with hotLinePresent := true } } := ⟨_, rfl⟩
  obtain ⟨coldLoad, told, kept⟩ := recompute_of_resting (p := joined) (by rw [hj, locked]; simp [Sequencer.lockedOut, Sequencer.rests])
    (by rw [hj, locked]; simp [Sequencer.lockedOut, Sequencer.rests])
    (by rw [hj, locked]; simp [Sequencer.lockedOut, Sequencer.rests]) (by rw [hj, locked]; exact noHunt)
  rw [← hj] at run
  obtain ⟨x, hx⟩ : ∃ x : Part, recompute joined = x := ⟨_, rfl⟩
  have posture : x.posture = joined.posture.select := by rw [← hx, recompute_posture]
  have store : x.store = p.store := by
    rw [← hx]
    simp only [recompute_frame]
    rw [hj, locked]
    rfl
  rw [hx] at run told kept
  have mech : x.mech = (endOrder p).mech := by rw [told, hj, locked]; rfl
  have seq : x.seq = p.seq.lockedOut .blocked := by rw [told, hj, locked]; rfl
  have joins : x.entries = p.entries ++ [⟨.hotLine, .master m, reason, p.uptime, Option.none, Option.none, some n⟩] := by
    rw [told, hj, locked]; rfl
  have kind : x.elements.closeKind = .none := by rw [told, hj, locked]; rfl
  have rest : x.records = p.records ∧ x.hunt = p.hunt ∧ x.intake = p.intake := by
    rw [told, hj, locked]; exact ⟨rfl, rfl, rfl⟩
  have lockout : ∀ y : Master, x.pendingFor y .lockout = true := fun y =>
    kept y _ ((pendingFor_congr (p := joined) (q := q) (by rw [hj]) y _).trans (raised.1 _ (by simp) y))
  obtain ⟨write, hw⟩ : ∃ write : Part, write = queueWrite (.slot n (some ⟨.hotLine, .master m, reason⟩)) (some k) x := ⟨_, rfl⟩
  have queue : write.store.queue = p.store.queue ++ [⟨.slot n (some ⟨.hotLine, .master m, reason⟩), some k⟩] := by
    rw [hw, queueWrite_queue, store]
  obtain ⟨-, -, -, wIntake, wElements, wMech, wSeq, wEntries, wPosture, -, wHunt, wRecords, wNotices, -⟩ :=
    queueWrite_frame (.slot n (some ⟨.hotLine, .master m, reason⟩)) (some k) x
  rw [← hw] at run wIntake wElements wMech wSeq wEntries wPosture wHunt wRecords wNotices
  obtain ⟨-, -, -, rIntake, rElements, rMech, rSeq, rEntries, rPosture, -, rHunt, rRecords, -, rStore⟩ := raise_frame .blocks write
  have lastMech := rMech.trans (wMech.trans mech)
  have lastSeq := rSeq.trans (wSeq.trans seq)
  have lastPosture := rPosture.trans (wPosture.trans posture)
  refine ⟨_, run, congrArg Mechanism.closeOutput lastMech, congrArg Mechanism.tripOutput lastMech,
    congrArg Mechanism.order lastMech, congrArg Mechanism.orderTimer lastMech, congrArg Sequencer.state lastSeq,
    congrArg Sequencer.lockoutReason lastSeq, rEntries.trans (wEntries.trans joins), ?_, ?_,
    (congrArg Store.queue rStore).trans queue, fun y => ⟨raise_pending (by simp) _ y, ?_⟩, ?_,
    (congrArg Elements.closeKind (rElements.trans wElements)).trans kind, rRecords.trans (wRecords.trans rest.1),
    rHunt.trans (wHunt.trans rest.2.1), rIntake.trans (wIntake.trans rest.2.2)⟩
  · exact (congrArg Posture.hotLinePresent lastPosture).trans (by rw [hj]; rfl)
  · have active : (raise .blocks write).posture.active = joined.posture.select.active := congrArg Posture.active lastPosture
    refine (select_active_of_hotLine (q := joined.posture) (by rw [hj])).imp active.trans active.trans
  · exact raise_kept _ _ _ _ ((pendingFor_congr wNotices y _).trans (lockout y))
  · exact answer_get _ _ _ _

/-- Settles O47. -/
theorem hotLinePlacementReleasesClose : Obligations.HotLinePlacementReleasesClose := by
  intro k m reason n s h hm r p room
  refine ⟨hotLine_placed_on_stroke h hm room, fun unlike => ?_⟩
  intro joined told placed stroke mech elements out
  have new : findEntry p.entries .hotLine (.master m) reason = none := findEntry_eq_none unlike
  refine ⟨fun noHunt order slot => ⟨fun deadTime closeWait => ?_, fun waiting => ?_⟩, fun running held own slot => ?_⟩
  · have handed : handPlacement .hotLine p = p :=
      (handPlacement_hotLine_of_no_hunt order noHunt).trans
        (seqBlockPlaced_of_not_reclosing (by decide) deadTime closeWait)
    exact exec_placeBlock_newHotLine h hm room new handed slot Iff.rfl
  · have handed : handPlacement .hotLine p = raise .lockout { p with seq := out .blocked } :=
      (handPlacement_hotLine_of_no_hunt order noHunt).trans (seqBlockPlaced_of_waiting .hotLine waiting)
    have entries : (raise .lockout { p with seq := out .blocked }).entries = p.entries := by simp only [raise_frame]
    exact exec_placeBlock_newHotLine h hm room new handed (by rw [entries]; exact slot) (by rw [entries])
  · intro abandoned
    have abandoned_of : ∀ (q : Part) (pending : Bool), handPlacement .hotLine p = q →
        q.hunt = p.hunt.abandonedBy .hotLine none pending → q.entries = p.entriesLeft →
        (∀ x : Master, q.pendingFor x .huntEnd = true) → abandoned q := by
      intro q pending handed hunt entries huntEnd
      have pendingEq : q.hunt.handBackPending = pending := by rw [hunt]; rfl
      obtain ⟨-, -, fClock, fIntake, fPosture, fTable, fLinks, fStore⟩ := handPlacement_frame .hotLine p
      rw [handed] at fClock fIntake fPosture fTable fLinks fStore
      refine ⟨?_, ?_, entries, huntEnd, fPosture, fIntake, fTable, fLinks, fStore, fClock⟩
      · refine exec_placeBlock_newHotLine h hm room new handed (by rw [entries]; exact slot) ?_
        rw [entries]
        constructor
        · intro none e he isHotLine
          exact none e (List.mem_filter.mpr ⟨he, by simp [isHotLine]⟩) isHotLine
        · intro none e he
          exact none e (List.mem_filter.mp he).1
      · rw [pendingEq, hunt]
        rfl
    have own' : p.mech.order = .close → p.mech.placer = some .hunt := fun close => own (decide_eq_true close)
    refine ⟨fun order opened sound => ?_, fun order notOpen => ?_, fun order notOpen => ?_⟩
    · obtain ⟨notices, eq, raised⟩ := abandon_hotLine_opened order opened sound
      have locked : (abandon .hotLine none emptyCall p.strokeEnded).seq = p.seq.lockedOut .huntEnd := by rw [eq]
      have handed := handPlacement_hotLine_of_held running held own'
        (by rw [locked]; simp [Sequencer.lockedOut, Sequencer.rests]) (by rw [eq]; rfl)
      rw [← handed] at eq raised
      rw [strokeEnded_eq] at eq
      refine ⟨_, abandoned_of _ p.hunt.handBackPending rfl (by rw [eq]) (by rw [eq]) (raised.1 _ (by simp)), ?_⟩
      refine ⟨by rw [eq], by rw [eq]; rfl, by rw [eq], by rw [eq], raised.1 _ (by simp)⟩
    · obtain ⟨f, notices, eq, record, outcome, raised⟩ := abandon_hotLine_trips order notOpen
      have seq : (abandon .hotLine none emptyCall p.strokeEnded).seq = p.seq := by rw [eq, strokeEnded_eq]
      have handed := handPlacement_hotLine_of_held running held own' (by rw [seq, held]; exact ⟨by decide, by decide⟩)
        (by rw [eq]; rfl)
      rw [← handed] at eq raised seq
      rw [strokeEnded_eq] at eq
      refine ⟨_, abandoned_of _ true rfl (by rw [eq]) (by rw [eq]) (raised.1 _ (by simp)), by rw [eq]; rfl, seq, by rw [eq],
        ⟨f, by rw [eq], record.number, record.origin, record.causes, record.requester, record.shot, outcome⟩, by rw [eq],
        by rw [eq], fun x => ⟨raised.1 _ (by simp) x, raised.1 _ (by simp) x⟩⟩
    · have same : p.strokeEnded = p := if_neg (by rw [order]; decide)
      have eq := abandon_waits (reason := .hotLine) none emptyCall (by simp) notOpen order
      obtain ⟨-, raised⟩ := abandonStart_left .hotLine none p
      have handed := handPlacement_hotLine_of_held running held own'
        (by rw [same, eq]; exact ⟨by rw [held]; decide, by rw [held]; decide⟩) (by rw [same, eq]; rfl)
      rw [same] at handed
      rw [← handed] at eq
      refine ⟨_, abandoned_of _ true rfl (by rw [eq]) (by rw [eq]) (fun x => ?_), by rw [eq]; rfl, by rw [eq], by rw [eq],
        by rw [eq], by rw [eq]⟩
      rw [pendingFor_congr (q := abandonStart .hotLine none p) (by rw [eq])]
      exact raised.1 _ (by simp) x

end Sys2Proof.Machine
end HotLine

/-! SUPPORT. The start of a hunt and its abandonment by a request or a timer (07_earth_fault_hunt.md, R128 to R132, R136,
R137, R145, R146, R149). -/

section HuntStart
namespace Sys2Proof.Machine

/-! ## START HUNT (R128) -/

theorem positions_closed {p : Part} (h : ∀ j : Nat, 1 ≤ j → j ≤ p.table.n.getD 0 → p.believed j = .closed) :
    (p.table.positions.all fun k => decide (p.believed k = .closed)) = true := by
  rw [List.all_eq_true]
  intro j hj
  obtain ⟨low, high⟩ := List.mem_range'_1.mp hj
  exact decide_eq_true (h j low (by omega))

theorem positions_not_closed {p : Part} {j : Nat} (low : 1 ≤ j) (high : j ≤ p.table.n.getD 0) (h : p.believed j ≠ .closed) :
    (p.table.positions.all fun k => decide (p.believed k = .closed)) = false := by
  rw [List.all_eq_false]
  exact ⟨j, List.mem_range'_1.mpr ⟨low, by omega⟩, by simpa using h⟩

/-- The first two conditions are met. -/
theorem startRefusal_of_idle {p : Part} (state : p.seq.state = .lockout) (still : p.hunt.state.running = false) :
    startRefusal p =
      if p.table.state ≠ .ready then some .tableNotReady
      else if !(p.table.positions.all fun k => p.believed k = .closed) then some .switchNotClosed
      else if p.hasBlock .hotLine then some .hotLine
      else if p.hasBlock .mechanism then some .mechanismBlocked
      else if p.hasBlock .measure then some .measureLost
      else if p.posture.level = .ban then some .fireBan
      else if p.posture.silent then some .controlSilent
      else if !p.mech.energyHigh then some .energyLow
      else none :=
  (if_neg (by simp [state])).trans (if_neg (by simp [still]))

/-- The first four conditions are met. -/
theorem startRefusal_of_closed {p : Part} (state : p.seq.state = .lockout) (still : p.hunt.state.running = false)
    (ready : p.table.state = .ready) (closed : ∀ j : Nat, 1 ≤ j → j ≤ p.table.n.getD 0 → p.believed j = .closed) :
    startRefusal p =
      if p.hasBlock .hotLine then some .hotLine
      else if p.hasBlock .mechanism then some .mechanismBlocked
      else if p.hasBlock .measure then some .measureLost
      else if p.posture.level = .ban then some .fireBan
      else if p.posture.silent then some .controlSilent
      else if !p.mech.energyHigh then some .energyLow
      else none :=
  (startRefusal_of_idle state still).trans ((if_neg (by simp [ready])).trans (if_neg (by simp [positions_closed closed])))

/-- The first seven conditions are met. -/
theorem startRefusal_of_unblocked {p : Part} (state : p.seq.state = .lockout) (still : p.hunt.state.running = false)
    (ready : p.table.state = .ready) (closed : ∀ j : Nat, 1 ≤ j → j ≤ p.table.n.getD 0 → p.believed j = .closed)
    (hotLine : p.hasBlock .hotLine = false) (mechanism : p.hasBlock .mechanism = false) (measure : p.hasBlock .measure = false) :
    startRefusal p =
      if p.posture.level = .ban then some .fireBan
      else if p.posture.silent then some .controlSilent
      else if !p.mech.energyHigh then some .energyLow
      else none :=
  (startRefusal_of_closed state still ready closed).trans ((if_neg (by simp [hotLine])).trans ((if_neg (by simp [mechanism])).trans
    (if_neg (by simp [measure]))))

theorem mayRequest_startHunt {m : Master} (hm : m ≠ .crew) : mayRequest m .startHunt = true := decide_eq_true hm

theorem askStartHunt_refused {m : Master} {p : Part} {why : Why} (h : startRefusal p = some why) :
    askStartHunt m p = (p, Reply.wrong why) := by
  simp only [askStartHunt, h]

theorem askStartHunt_begun {m : Master} {p : Part} (h : startRefusal p = none) (hunt : p.hasBlock .hunt = false) :
    askStartHunt m p = (plan (p.huntBegun (starterOf m)), Reply.done []) := by
  have state : p.seq.state = .lockout := ((startRefusal_eq_none p).mp h).1
  simp only [askStartHunt, h, beginHunt_eq _ state hunt]

/-- The part as a hunt starts, before the placement of HUNT is raised (R130, R75). -/
def huntLent (starter : StartedBy) (p : Part) : Part :=
  { p with
    hunt :=
      { p.hunt with
        state := .ordering, startedBy := starter, lo := 0, hi := p.table.n.getD 0, testsUsed := 0, ordersIssued := 0
        unusable := 0, handBackPending := false, testLimit := p.settings.huntTestLimit
        testPickup := p.settings.sefPickup }
    entries := p.entries ++ [⟨.hunt, .part, 0, p.uptime, none, none, none⟩]
    seq := { p.seq with state := .huntHeld, failureNoted := false } }

/-- Settles O54. -/
theorem huntStartOrdersProbe : Obligations.HuntStartOrdersProbe := by
  intro k m n q limit s h hm p
  have run : ∀ {x : Part} {reply : Reply}, askStartHunt m p = (x, reply) →
      exec (.startHunt k) s = .next (s.withPart (x.answer k .startHunt reply)) :=
    fun taken => exec_command_eq h (r := .startHunt) (mayRequest_startHunt hm) taken
  refine ⟨?_, ?_, ?_⟩
  · intro state still ready size closed hotLine mechanism measure noBan heard energy opened tests positive hunt above below
      operable best
    have size' : p.table.n.getD 0 = n := by rw [size, Option.getD_some]
    have begins : startRefusal p = none := (startRefusal_eq_none p).mpr
      ⟨state, still, ready, by rw [size']; exact closed, hotLine, mechanism, measure, noBan, heard, energy⟩
    have probed := plan_huntBegun_probe (starter := starterOf m) size tests positive closed opened above below operable best
    have begun := run (askStartHunt_begun (m := m) begins hunt)
    obtain ⟨x, hx⟩ : ∃ x : Part, plan (p.huntBegun (starterOf m)) = x := ⟨_, rfl⟩
    rw [hx] at probed begun
    have huntOrder : x.pendingFor .control .huntOrder = true := by
      rw [probed]
      exact (raise_pendingFor .huntOrder _ .control .huntOrder).trans (by simp)
    have raised : ∀ y : Master, x.pendingFor y .blocks = true := fun y => by
      rw [probed]
      exact raise_kept .huntOrder _ y .blocks (raise_pending (k := .blocks) (by simp) _ y)
    have blocks : x.hasBlock .hunt = true := by
      rw [probed]
      simp [Part.huntBegun, Part.hasBlock]
    obtain ⟨-, -, -, rIntake, rElements, rMech, rSeq, -, rPosture, rTable, rHunt, rRecords, -, rStore⟩ := raise_frame .huntOrder
      { p.huntBegun (starterOf m) with
        hunt :=
          { p.hunt with
            state := .ordering, startedBy := starterOf m, lo := 0, hi := n, probe := some q, doubtfulSeen := false
            testsUsed := 0, testLimit := some limit, testPickup := p.settings.sefPickup, unusable := 0
            outstanding := some ⟨p.hunt.nextOrder, q, (p.table.switch q).ident.getD 0, .openSwitch⟩
            nextOrder := p.hunt.nextOrder + 1, ordersIssued := 1, handBackPending := false
            orderTimer := some (p.clock + p.table.timeout.getD 0 * 1000) } }
    rw [← probed] at rIntake rElements rMech rSeq rPosture rTable rHunt rRecords rStore
    obtain ⟨-, -, -, bIntake, bElements, bMech, bSeq, -, bPosture, bTable, -, bRecords, -, bStore⟩ := raise_frame .blocks
      (huntLent (starterOf m) p)
    refine ⟨_, begun, congrArg Hunt.state rHunt, congrArg Hunt.lo rHunt, congrArg Hunt.hi rHunt, congrArg Hunt.probe rHunt,
      congrArg Hunt.testsUsed rHunt, congrArg Hunt.testLimit rHunt, congrArg Hunt.testPickup rHunt,
      congrArg Hunt.unusable rHunt, congrArg Hunt.startedBy rHunt, congrArg Hunt.outstanding rHunt,
      congrArg Hunt.nextOrder rHunt, congrArg Hunt.ordersIssued rHunt, congrArg Hunt.orderTimer rHunt,
      congrArg Sequencer.state (rSeq.trans bSeq), congrArg Sequencer.failureNoted (rSeq.trans bSeq), blocks, huntOrder, raised,
      answer_get _ _ _ _, rMech.trans bMech, rTable.trans bTable, rPosture.trans bPosture, rIntake.trans bIntake,
      rElements.trans bElements, rRecords.trans bRecords, rStore.trans bStore⟩
  · intro state still ready closed hotLine mechanism measure noBan heard energy opened order hunt
    have begins : startRefusal p = none := (startRefusal_eq_none p).mpr
      ⟨state, still, ready, closed, hotLine, mechanism, measure, noBan, heard, energy⟩
    have taken := askStartHunt_begun (m := m) begins hunt
    refine ⟨_, run taken, plan_spec (p := p.huntBegun (starterOf m)) opened rfl fun close => ?_⟩
    exact absurd (order.symm.trans close) (by simp)
  · intro refused two four seven
    have refuses : ∀ why : Why, startRefusal p = some why → refused (byte why.code) :=
      fun why hw => run (askStartHunt_refused hw)
    refine ⟨fun away => refuses .notLockout (if_pos away),
      fun state running => refuses .huntRunning ((if_neg (by simp [state])).trans (if_pos running)),
      fun ⟨state, still⟩ unready => refuses .tableNotReady ((startRefusal_of_idle state still).trans (if_pos unready)),
      fun j ⟨state, still⟩ ready low high open' => refuses .switchNotClosed ((startRefusal_of_idle state still).trans
        ((if_neg (by simp [ready])).trans (if_pos (by simp only [positions_not_closed low high open']; rfl)))),
      fun ⟨⟨state, still⟩, ready, closed⟩ hotLine => refuses .hotLine
        ((startRefusal_of_closed state still ready closed).trans (if_pos hotLine)),
      fun ⟨⟨state, still⟩, ready, closed⟩ hotLine mechanism => refuses .mechanismBlocked
        ((startRefusal_of_closed state still ready closed).trans ((if_neg (by simp [hotLine])).trans (if_pos mechanism))),
      fun ⟨⟨state, still⟩, ready, closed⟩ hotLine mechanism measure => refuses .measureLost
        ((startRefusal_of_closed state still ready closed).trans ((if_neg (by simp [hotLine])).trans
          ((if_neg (by simp [mechanism])).trans (if_pos measure)))),
      fun ⟨⟨⟨state, still⟩, ready, closed⟩, hotLine, mechanism, measure⟩ ban => refuses .fireBan
        ((startRefusal_of_unblocked state still ready closed hotLine mechanism measure).trans (if_pos ban)),
      fun ⟨⟨⟨state, still⟩, ready, closed⟩, hotLine, mechanism, measure⟩ noBan silent => refuses .controlSilent
        ((startRefusal_of_unblocked state still ready closed hotLine mechanism measure).trans ((if_neg noBan).trans
          (if_pos silent))),
      fun ⟨⟨⟨state, still⟩, ready, closed⟩, hotLine, mechanism, measure⟩ noBan heard low => refuses .energyLow
        ((startRefusal_of_unblocked state still ready closed hotLine mechanism measure).trans ((if_neg noBan).trans
          ((if_neg (by simp [heard])).trans (if_pos (by simp [low])))))⟩

/-! ## Abandonment by ABORT HUNT and by the hunt's timers (R136, R137, R145, R146, R149) -/

/-- An abandonment takes the outstanding order away itself (R146, item 1). -/
theorem abandon_endSwitchOrder (reason : HuntReason) (detail : Option HuntDetail) (c : TripCall) (p : Part) :
    abandon reason detail c (endSwitchOrder p) = abandon reason detail c p := by
  have start : abandonStart reason detail (endSwitchOrder p) = abandonStart reason detail p := rfl
  unfold abandon
  rw [start]

/-- An abandonment stops the close-wait timer itself (R146, item 1). -/
theorem abandon_closeWaitStopped (reason : HuntReason) (detail : Option HuntDetail) (c : TripCall) (p : Part) :
    abandon reason detail c { p with hunt := { p.hunt with closeWaitTimer := none } } = abandon reason detail c p := by
  have start : abandonStart reason detail { p with hunt := { p.hunt with closeWaitTimer := none } } =
      abandonStart reason detail p := rfl
  unfold abandon
  rw [start]

/-- A hunt abandoned with the breaker OPEN and no order in progress: the breaker is back in LOCKOUT (R146, item 6). -/
structure HuntEnded (reason : HuntReason) (detail : Option HuntDetail) (p q : Part) : Prop where
  hunt : q.hunt = p.hunt.abandonedBy reason detail p.hunt.handBackPending
  list : q.hasBlock .hunt = false
  seq : q.seq = p.seq.lockedOut .huntEnd
  pending : ∀ x : Master, q.pendingFor x .huntEnd = true ∧ q.pendingFor x .lockout = true
  mech : q.mech = p.mech
  records : q.records = p.records
  posture : q.posture = p.posture
  intake : q.intake = p.intake
  store : q.store = p.store

theorem HuntAbandoned.ended {reason : HuntReason} {detail : Option HuntDetail} {causes : Causes} {requester : Option Master}
    {p q : Part} (h : HuntAbandoned reason detail causes requester p q) (opened : p.position = .opened)
    (order : p.mech.order = .none) : HuntEnded reason detail p q ∧ q.clock = p.clock ∧ q.table = p.table := by
  obtain ⟨left, raised⟩ := h.handedBack opened (by simp [order])
  have list : q.hasBlock .hunt = false := hasBlock_hunt_of_entriesLeft (p := p) (by rw [left])
  have pending : ∀ x : Master, q.pendingFor x .huntEnd = true ∧ q.pendingFor x .lockout = true :=
    fun x => ⟨raised.1 _ (by simp) x, raised.1 _ (by simp) x⟩
  refine ⟨⟨?_, list, ?_, pending, ?_, ?_, ?_, ?_, ?_⟩, ?_, ?_⟩ <;> rw [left]

/-- ABORT HUNT of a running hunt, with the cause MANUAL and its master (R149, R146). -/
theorem exec_abortHunt {k : LinkId} {m : Master} {s : State} (h : s.toPart.serves k m)
    (running : (s.toPart.found k m .abortHunt).hunt.state.running = true)
    (sound : (s.toPart.found k m .abortHunt).seq.failureNoted = false)
    (own : (s.toPart.found k m .abortHunt).mech.order = .close →
      (s.toPart.found k m .abortHunt).mech.placer = some .hunt) :
    ∃ q : Part, exec (.abortHunt k) s = .next (s.withPart (q.answer k .abortHunt ⟨.done, [], false⟩)) ∧
      HuntAbandoned .aborted (some (.master m)) { manual := true } (some m) (s.toPart.found k m .abortHunt) q :=
  ⟨_, exec_command_eq h (r := .abortHunt) rfl (if_pos running), abandon_spec _ _ _ (by simp) sound own⟩

/-- The hunt order timer's expiry with a hunt running: the switch's state becomes UNKNOWN and the hunt is abandoned (R136). -/
theorem exec_orderTimerExpiry {e : Nat} {o : SwitchOrder} {s : State} (timer : s.hunt.orderTimer = some e)
    (outstanding : s.hunt.outstanding = some o) (running : s.hunt.state.running = true)
    (sound : s.seq.failureNoted = false) (own : s.mech.order = .close → s.mech.placer = some .hunt) :
    ∃ q : Part, exec .orderTimerExpiry s = .next (s.withPart q) ∧
      HuntAbandoned .orderTimeout none {} none
        { s.toPart with clock := max s.clock e, table := s.table.withBelieved o.position .unknown } q := by
  obtain ⟨told, ht⟩ : ∃ told : Part, told =
      { s.toPart with clock := max s.clock e, table := s.table.withBelieved o.position .unknown } := ⟨_, rfl⟩
  have taken : orderTimerEnded (s.toPart.reach e) = abandon .orderTimeout none emptyCall told := by
    rw [← abandon_endSwitchOrder, ht]
    unfold orderTimerEnded
    rw [show (s.toPart.reach e).hunt.outstanding = some o from outstanding]
    exact if_pos running
  refine ⟨abandon .orderTimeout none emptyCall told, ?_, ?_⟩
  · change Host.Outcome.next (s.withPart (expired s.hunt.orderTimer orderTimerEnded s.toPart)) = _
    rw [expired_some timer, taken]
  · rw [← ht]
    exact abandon_spec none {} none (by simp) (by rw [ht]; exact sound) (by rw [ht]; exact own)

/-- The hunt's close-wait expiry (R137). -/
theorem exec_huntCloseWaitExpiry {e : Nat} {s : State} (timer : s.hunt.closeWaitTimer = some e)
    (running : s.hunt.state.running = true) (sound : s.seq.failureNoted = false)
    (own : s.mech.order = .close → s.mech.placer = some .hunt) :
    ∃ q : Part, exec .huntCloseWaitExpiry s = .next (s.withPart q) ∧
      HuntAbandoned .closeWaitExpired none {} none { s.toPart with clock := max s.clock e } q := by
  refine ⟨abandon .closeWaitExpired none emptyCall (s.toPart.reach e), ?_, abandon_spec none {} none (by simp) sound own⟩
  change Host.Outcome.next (s.withPart (expired s.hunt.closeWaitTimer huntCloseWaitEnded s.toPart)) = _
  rw [expired_some timer, ← abandon_closeWaitStopped]
  exact congrArg (fun q => Host.Outcome.next (s.withPart q)) (if_pos running)

theorem switch_withBelieved_self {t : SectionTable} {j : Nat} (low : 1 ≤ j) (high : j ≤ t.switches.length) (b : Believed) :
    (t.withBelieved j b).switch j = { t.switch j with believed := b } := by
  have below : j - 1 < t.switches.length := by omega
  simp [SectionTable.switch, SectionTable.withBelieved, show j ≠ 0 by omega, List.getD_eq_getElem?_getD, below]

theorem switch_withBelieved_ne {t : SectionTable} {i j : Nat} (low : 1 ≤ i) (h : j ≠ i) (b : Believed) :
    (t.withBelieved i b).switch j = t.switch j := by
  unfold SectionTable.switch SectionTable.withBelieved
  split
  next => rfl
  next nonzero =>
    dsimp only
    have apart : i - 1 ≠ j - 1 := by omega
    simp [List.getD_eq_getElem?_getD, apart]

/-- Settles O55. -/
theorem openHuntAbandoned : Obligations.OpenHuntAbandoned := by
  unfold Obligations.OpenHuntAbandoned
  intro waits ended
  have ends : ∀ {reason : HuntReason} {detail : Option HuntDetail} {p : Part} {t : State},
      HuntEnded reason detail p t.toPart → ended reason detail p t := fun {reason detail p t} h =>
    ⟨congrArg Hunt.state h.hunt, congrArg Hunt.outstanding h.hunt, congrArg Hunt.orderTimer h.hunt,
      congrArg Hunt.closeWaitTimer h.hunt, congrArg Hunt.closeDue h.hunt, h.list, congrArg Hunt.result h.hunt,
      congrArg Sequencer.state h.seq, congrArg Sequencer.lockoutReason h.seq, h.pending, h.mech, h.records, h.posture,
      h.intake, h.store⟩
  refine ⟨fun k m s h => ?_, fun e o s ⟨running, opened, order, sound⟩ => ?_, fun e s held => ?_⟩
  · intro p
    refine ⟨fun ⟨running, opened, order, sound⟩ => ?_, fun held => exec_abortHunt h held.running held.sound held.own,
      fun still => exec_command_eq h (r := .abortHunt) rfl (if_neg (by rw [still]; exact Bool.false_ne_true))⟩
    obtain ⟨q, run, abandoned⟩ := exec_abortHunt h running sound fun close => absurd (order.symm.trans close) (by simp)
    obtain ⟨left, clock, table⟩ := abandoned.ended opened order
    exact ⟨_, run, ends ⟨left.hunt, left.list, left.seq, left.pending, left.mech, left.records, left.posture, left.intake,
      left.store⟩, table, answer_get _ _ _ _⟩
  · have own : s.mech.order = .close → s.mech.placer = some .hunt := fun close => absurd (order.symm.trans close) (by simp)
    refine ⟨fun timer outstanding low high => ?_, fun timer => ?_⟩
    · obtain ⟨q, run, abandoned⟩ := exec_orderTimerExpiry timer outstanding running sound own
      obtain ⟨left, clock, table⟩ := abandoned.ended opened order
      refine ⟨_, run, ends ⟨left.hunt, left.list, left.seq, left.pending, left.mech, left.records, left.posture, left.intake,
        left.store⟩, clock, ?_, fun j other => ?_⟩
      · change (q.table.switch o.position).believed = .unknown
        rw [table, switch_withBelieved_self low high]
      · change q.table.switch j = _
        rw [table, switch_withBelieved_ne low other]
    · obtain ⟨q, run, abandoned⟩ := exec_huntCloseWaitExpiry timer running sound own
      obtain ⟨left, clock, table⟩ := abandoned.ended opened order
      exact ⟨_, run, ends ⟨left.hunt, left.list, left.seq, left.pending, left.mech, left.records, left.posture, left.intake,
        left.store⟩, clock, table⟩
  · exact ⟨fun o timer outstanding => exec_orderTimerExpiry timer outstanding held.running held.sound held.own,
      fun timer => exec_huntCloseWaitExpiry timer held.running held.sound held.own⟩

end Sys2Proof.Machine
end HuntStart

/-! SUPPORT. The reports of switches (07_earth_fault_hunt.md, R126, R132, R134, R135, R142). -/

section SwitchReports
namespace Sys2Proof.Machine

/-! ## The believed states that a report sets (R126) -/

/-- Whether position j in use holds an identity (R126). -/
def Part.holds (p : Part) (ident j : Nat) : Bool :=
  1 ≤ j && j ≤ p.table.n.getD 0 && (p.table.switch j).ident = some ident

/-- The believed state of position j once a report of an identity has set it (R126). -/
def Part.believedAfter (p : Part) (ident : Nat) (b : Believed) (j : Nat) : Believed :=
  if p.holds ident j then b else p.believed j

/-- The part once a report has set its believed state (R126). -/
def Part.reportedWith (p : Part) (ident : Nat) (b : Believed) : Part := { p with table := p.table.reported ident b }

/-- The section table after a report: the believed states alone differ (R126). -/
def TableReported (p : Part) (ident : Nat) (b : Believed) (u : SectionTable) : Prop :=
  u = { p.table with switches := u.switches } ∧
    ∀ j : Nat, 1 ≤ j → j ≤ p.table.switches.length →
      u.switch j = { p.table.switch j with believed := p.believedAfter ident b j }

theorem holds_iff {p : Part} {ident j : Nat} :
    p.holds ident j = true ↔ 1 ≤ j ∧ j ≤ p.table.n.getD 0 ∧ (p.table.switch j).ident = some ident := by
  simp [Part.holds, and_assoc]

theorem mem_holders {p : Part} {ident j : Nat} : j ∈ p.table.holders ident ↔ p.holds ident j = true := by
  rw [holds_iff]
  unfold SectionTable.holders SectionTable.positions
  rw [List.mem_filter, List.mem_range'_1, decide_eq_true_iff]
  exact ⟨fun ⟨⟨low, high⟩, same⟩ => ⟨low, by omega, same⟩, fun ⟨low, high, same⟩ => ⟨⟨low, by omega⟩, same⟩⟩

theorem withBelieved_length (t : SectionTable) (i : Nat) (b : Believed) :
    (t.withBelieved i b).switches.length = t.switches.length := by
  simp [SectionTable.withBelieved]

/-- A believed state set at positions of the table, one after the other. -/
theorem switch_foldl_withBelieved {l : List Nat} (b : Believed) {j : Nat} (low : ∀ i ∈ l, 1 ≤ i) (hj : 1 ≤ j) :
    ∀ {t : SectionTable}, j ≤ t.switches.length →
      (l.foldl (fun t k => t.withBelieved k b) t).switch j =
        { t.switch j with believed := if j ∈ l then b else (t.switch j).believed } := by
  induction l with
  | nil => simp
  | cons i l ih =>
    intro t high
    have lowTail : ∀ x ∈ l, 1 ≤ x := fun x hx => low x (List.mem_cons_of_mem _ hx)
    rw [List.foldl_cons, ih lowTail (by rw [withBelieved_length]; exact high)]
    by_cases same : j = i
    · subst same
      rw [switch_withBelieved_self hj high]
      simp
    · rw [switch_withBelieved_ne (low i List.mem_cons_self) same]
      simp [same]

/-- Nothing but the believed states changes. -/
theorem foldl_withBelieved_eq (l : List Nat) (b : Believed) (t : SectionTable) :
    l.foldl (fun t k => t.withBelieved k b) t =
      { t with switches := (l.foldl (fun t k => t.withBelieved k b) t).switches } := by
  induction l generalizing t with
  | nil => rfl
  | cons i l ih =>
    rw [List.foldl_cons, ih]
    rfl

theorem switch_withBelieved_stored (t : SectionTable) (i j : Nat) (b : Believed) :
    ((t.withBelieved i b).switch j).ident = (t.switch j).ident ∧
      ((t.withBelieved i b).switch j).operable = (t.switch j).operable := by
  unfold SectionTable.switch SectionTable.withBelieved
  split
  next => exact ⟨rfl, rfl⟩
  next =>
    dsimp only
    rw [List.getD_eq_getElem?_getD, List.getD_eq_getElem?_getD, List.getElem?_modify]
    cases t.switches[j - 1]? with
    | none => exact ⟨rfl, rfl⟩
    | some e => by_cases same : i - 1 = j - 1 <;> simp [same]

/-- The identity and the operable flag of each position stay. -/
theorem switch_foldl_stored (l : List Nat) (b : Believed) (t : SectionTable) (j : Nat) :
    ((l.foldl (fun t k => t.withBelieved k b) t).switch j).ident = (t.switch j).ident ∧
      ((l.foldl (fun t k => t.withBelieved k b) t).switch j).operable = (t.switch j).operable := by
  induction l generalizing t with
  | nil => exact ⟨rfl, rfl⟩
  | cons i l ih =>
    obtain ⟨ident, operable⟩ := ih (t.withBelieved i b)
    obtain ⟨ident', operable'⟩ := switch_withBelieved_stored t i j b
    exact ⟨ident.trans ident', operable.trans operable'⟩

theorem tableReported (p : Part) (ident : Nat) (b : Believed) : TableReported p ident b (p.table.reported ident b) := by
  refine ⟨foldl_withBelieved_eq _ _ _, fun j low high => ?_⟩
  have holders : ∀ i ∈ p.table.holders ident, 1 ≤ i := fun i hi => (holds_iff.mp (mem_holders.mp hi)).1
  refine (switch_foldl_withBelieved b holders low high).trans ?_
  simp only [Part.believedAfter, mem_holders]
  rfl

theorem reportedWith_believed {p : Part} {ident : Nat} {b : Believed} {j : Nat} (low : 1 ≤ j)
    (high : j ≤ p.table.switches.length) : (p.reportedWith ident b).believed j = p.believedAfter ident b j :=
  congrArg SwitchEntry.believed ((tableReported p ident b).2 j low high)

theorem reportedWith_stored (p : Part) (ident : Nat) (b : Believed) (j : Nat) :
    ((p.reportedWith ident b).table.switch j).ident = (p.table.switch j).ident ∧
      ((p.reportedWith ident b).table.switch j).operable = (p.table.switch j).operable :=
  switch_foldl_stored _ _ _ _

theorem reportedWith_timeout (p : Part) (ident : Nat) (b : Believed) :
    (p.reportedWith ident b).table.timeout = p.table.timeout := by
  change (p.table.reported ident b).timeout = _
  rw [(tableReported p ident b).1]

theorem reportedWith_n (p : Part) (ident : Nat) (b : Believed) : (p.reportedWith ident b).table.n = p.table.n := by
  change (p.table.reported ident b).n = _
  rw [(tableReported p ident b).1]

/-! ## The checks of REPORT SWITCH (R126, R187) -/

/-- The believed state that a report's state byte sets (R126, R187). -/
def reportTells (state : Byte) : Believed := if state = 0 then .opened else if state = 1 then .closed else .unknown

theorem reportedState_eq {state : Byte} (h : state.toNat ≤ 2) : reportedState state.toNat = some (reportTells state) := by
  have hs : state = 0 ∨ state = 1 ∨ state = 2 := by
    have zero : state = 0 ↔ state.toNat = 0 := ⟨fun h => by rw [h]; rfl, fun h => BitVec.eq_of_toNat_eq h⟩
    have one : state = 1 ↔ state.toNat = 1 := ⟨fun h => by rw [h]; rfl, fun h => BitVec.eq_of_toNat_eq h⟩
    have two : state = 2 ↔ state.toNat = 2 := ⟨fun h => by rw [h]; rfl, fun h => BitVec.eq_of_toNat_eq h⟩
    rw [zero, one, two]
    omega
  rcases hs with rfl | rfl | rfl <;> rfl

theorem reportedState_beyond {n : Nat} (h : 2 < n) : reportedState n = none := by
  match n with
  | 0 | 1 | 2 => omega
  | _ + 3 => rfl

theorem ident_valid {ident : Byte} : within 1 254 ident.toNat = true ↔ ident ≠ 0 ∧ ident ≠ 255 := by
  have zero : ident = 0 ↔ ident.toNat = 0 := ⟨fun h => by rw [h]; rfl, fun h => BitVec.eq_of_toNat_eq h⟩
  have top : ident = 255 ↔ ident.toNat = 255 := ⟨fun h => by rw [h]; rfl, fun h => BitVec.eq_of_toNat_eq h⟩
  have bound : ident.toNat < 256 := ident.isLt
  simp only [within, Bool.and_eq_true, decide_eq_true_iff, ne_eq, zero, top]
  omega

theorem askReportSwitch_outOfRange {ident state : Byte} {reference : Half} {p : Part}
    (h : 2 < state.toNat ∨ ident = 0 ∨ ident = 255) :
    askReportSwitch ident state reference p = (p, Reply.bare .outOfRange) := by
  unfold askReportSwitch
  by_cases known : state.toNat ≤ 2
  · have invalid : within 1 254 ident.toNat = false := by
      rw [Bool.eq_false_iff, ne_eq, ident_valid]
      rintro ⟨notZero, notTop⟩
      rcases h with beyond | zero | top
      · omega
      · exact notZero zero
      · exact notTop top
    rw [reportedState_eq known]
    exact if_pos (by rw [invalid]; rfl)
  · rw [reportedState_beyond (by omega)]

/-- The checks after the operands' ranges (R126, items 2 and 3). -/
theorem askReportSwitch_valid {ident state : Byte} {reference : Half} {p : Part} (known : state.toNat ≤ 2)
    (valid : ident ≠ 0 ∧ ident ≠ 255) :
    askReportSwitch ident state reference p =
      if (p.table.holders ident.toNat).isEmpty then (p, Reply.bare .notFound)
      else if p.hunt.misnamed ident.toNat reference.toNat then (p, Reply.bare .outOfRange)
      else reportTaken (reportTells state) reference.toNat p.table (p.reportedWith ident.toNat (reportTells state)) := by
  unfold askReportSwitch
  rw [reportedState_eq known]
  exact if_neg (by rw [ident_valid.mpr valid]; decide)

theorem askReportSwitch_notFound {ident state : Byte} {reference : Half} {p : Part} (known : state.toNat ≤ 2)
    (valid : ident ≠ 0 ∧ ident ≠ 255) (none : ∀ j : Nat, p.holds ident.toNat j = false) :
    askReportSwitch ident state reference p = (p, Reply.bare .notFound) := by
  rw [askReportSwitch_valid known valid]
  refine if_pos (List.isEmpty_iff.mpr (List.eq_nil_iff_forall_not_mem.mpr fun j hj => ?_))
  rw [mem_holders, none j] at hj
  contradiction

theorem askReportSwitch_held {ident state : Byte} {reference : Half} {p : Part} (known : state.toNat ≤ 2)
    (valid : ident ≠ 0 ∧ ident ≠ 255) (held : ∃ j : Nat, p.holds ident.toNat j = true) :
    askReportSwitch ident state reference p =
      if p.hunt.misnamed ident.toNat reference.toNat then (p, Reply.bare .outOfRange)
      else reportTaken (reportTells state) reference.toNat p.table (p.reportedWith ident.toNat (reportTells state)) := by
  obtain ⟨j, hj⟩ := held
  rw [askReportSwitch_valid known valid]
  refine if_neg fun empty => ?_
  have mem := mem_holders.mpr hj
  rw [List.isEmpty_iff.mp empty] at mem
  contradiction

theorem referred_some {h : Hunt} {o : SwitchOrder} {reference : Nat} (outstanding : h.outstanding = some o)
    (number : o.number.toNat = reference) : h.referred reference = some o := by
  simp only [Hunt.referred, outstanding, number, if_true]

theorem referred_none {h : Hunt} {reference : Nat}
    (other : ∀ o : SwitchOrder, h.outstanding = some o → o.number.toNat ≠ reference) : h.referred reference = none := by
  unfold Hunt.referred
  split
  next o outstanding => exact if_neg (other o outstanding)
  next => rfl

theorem misnamed_of_referred_none {h : Hunt} {ident reference : Nat} (none : h.referred reference = none) :
    h.misnamed ident reference = false := by
  simp only [Hunt.misnamed, none]

theorem misnamed_of_referred {h : Hunt} {o : SwitchOrder} {ident reference : Nat} (referred : h.referred reference = some o) :
    h.misnamed ident reference = decide (o.ident ≠ ident) := by
  simp only [Hunt.misnamed, referred]

/-- A reference above 255 names no order (R187). -/
theorem referred_none_of_above {h : Hunt} {reference : Nat} (above : 255 < reference) : h.referred reference = none :=
  referred_none fun o _ number => by
    have := o.number.isLt
    omega

theorem reportTaken_unreferenced {b : Believed} {reference : Nat} {before : SectionTable} {p : Part} (above : 255 < reference) :
    reportTaken b reference before p = (weighDisturbance before p, Reply.done []) := if_pos above

theorem reportTaken_tooLate {b : Believed} {reference : Nat} {before : SectionTable} {p : Part} (low : reference ≤ 255)
    (none : p.hunt.referred reference = none) : reportTaken b reference before p = (p, Reply.bare .tooLate) := by
  unfold reportTaken
  rw [if_neg (by omega), none]

theorem reportTaken_answered {b : Believed} {reference : Nat} {before : SectionTable} {p : Part} {o : SwitchOrder}
    (referred : p.hunt.referred reference = some o) (running : p.hunt.state.running = true) :
    reportTaken b reference before p = (orderAnswered o b p, Reply.done []) := by
  have low : ¬255 < reference := fun above => by
    rw [referred_none_of_above above] at referred
    contradiction
  unfold reportTaken
  rw [if_neg low, referred]
  exact if_pos running

/-! ## The next order and the close due (R132, R137, R142) -/

theorem deriveOrder_closes {p : Part} {m j : Nat} (probe : p.hunt.probe = some m) (low : 1 ≤ j) (below : j < m)
    (closed : p.closedBelow j) (notClosed : p.believed j ≠ .closed) : deriveOrder p = issueOrder j .closeSwitch p := by
  simp only [deriveOrder, probe, Part.lowestNotClosed_eq_some low below closed notClosed]

theorem deriveOrder_opens {p : Part} {m : Nat} (probe : p.hunt.probe = some m) (closed : p.closedBelow m)
    (notOpen : p.believed m ≠ .opened) : deriveOrder p = issueOrder m .openSwitch p := by
  simp only [deriveOrder, probe, Part.lowestNotClosed_eq_none closed, if_pos notOpen]

theorem deriveOrder_met {p : Part} {m : Nat} (probe : p.hunt.probe = some m) (closed : p.closedBelow m)
    (opened : p.believed m = .opened) : deriveOrder p = closeBecomesDue .test p := by
  simp only [deriveOrder, probe, Part.lowestNotClosed_eq_none closed, if_neg (not_not.mpr opened)]

theorem restoreStep_closes {p : Part} {j : Nat} (opened : p.believed p.hunt.lo = .opened) (low : 1 ≤ j) (below : j < p.hunt.lo)
    (closed : p.closedBelow j) (notClosed : p.believed j ≠ .closed) : restoreStep p = issueOrder j .closeSwitch p := by
  unfold restoreStep
  rw [if_neg (by omega), if_neg (not_not.mpr opened), Part.lowestNotClosed_eq_some low below closed notClosed]

theorem restoreStep_met {p : Part} (low : 1 ≤ p.hunt.lo) (opened : p.believed p.hunt.lo = .opened)
    (closed : p.closedBelow p.hunt.lo) : restoreStep p = closeBecomesDue .restore p := by
  unfold restoreStep
  rw [if_neg (by omega), if_neg (not_not.mpr opened), Part.lowestNotClosed_eq_none closed]

/-- A probe's configuration that is not met brings an order of one of its switches (R132). -/
theorem deriveOrder_issues {p : Part} {m : Nat} (probe : p.hunt.probe = some m)
    (unmet : ¬(p.closedBelow m ∧ p.believed m = .opened)) :
    ∃ (j : Nat) (a : SwitchAction), deriveOrder p = issueOrder j a p := by
  unfold deriveOrder
  rw [probe]
  cases lowest : p.lowestNotClosed (m - 1) with
  | some j => exact ⟨j, .closeSwitch, by simp only [lowest]⟩
  | none =>
    refine ⟨m, .openSwitch, by
      simp only [lowest]
      refine if_pos fun opened => unmet ⟨fun i low below => ?_, opened⟩
      have closed := List.find?_eq_none.mp lowest i (List.mem_range'_1.mpr ⟨low, by omega⟩)
      simpa using closed⟩

/-- The close due is placed at once (R137, R138, R143). -/
theorem closeBecomesDue_placed {due : CloseDue} {p : Part} (some' : due ≠ .none) (live : due = .test → p.intake.sourceLive = true)
    (energy : p.mech.energyHigh = true) (accepted : closeRefusal p = none) :
    closeBecomesDue due p = if due = .test then p.testClosePlaced else p.restoreClosePlaced := by
  have conditions : Part.closeConditions { p with hunt := { p.hunt with closeDue := due } } = true :=
    closeConditions_iff.mpr ⟨energy, live⟩
  have placed : ∀ kind : CloseKind, placeClose .hunt kind { p with hunt := { p.hunt with closeDue := due } } =
      (Part.huntClosePlaced { p with hunt := { p.hunt with closeDue := due } } kind, none) := fun kind =>
    placeClose_accepted .hunt kind (p := { p with hunt := { p.hunt with closeDue := due } }) accepted
  unfold closeBecomesDue
  simp only [conditions, if_true, placeDueClose]
  cases due with
  | none => exact absurd rfl some'
  | test =>
    simp only [placeTestClose, placed]
    rfl
  | restore =>
    simp only [placeRestoreClose, placed]
    rfl

/-- The close due waits for energy-ready or source-live (R137). -/
theorem closeBecomesDue_waits {due : CloseDue} {p : Part}
    (missing : p.mech.energyHigh = false ∨ (due = .test ∧ p.intake.sourceLive = false)) :
    closeBecomesDue due p = { p with hunt := { p.hunt with closeDue := due, closeWaitTimer := some (p.clock + 10000) } } := by
  have conditions : ¬Part.closeConditions { p with hunt := { p.hunt with closeDue := due } } = true := by
    rw [closeConditions_iff]
    rintro ⟨energy, live⟩
    rcases missing with low | ⟨test, dead⟩
    · exact absurd energy (by simp [low])
    · exact absurd (live test) (by simp [dead])
  exact if_neg conditions

theorem issueOrder_of_not_opened {p : Part} (j : Nat) (a : SwitchAction) (notOpen : p.position ≠ .opened) :
    issueOrder j a p = abandon .positionNotOpen none emptyCall p := if_pos notOpen

/-- The plan's probe is derived (R131). -/
theorem plan_derives {p : Part} {m : Nat} (sections : p.hunt.lo ≠ p.hunt.hi) (tests : some p.hunt.testsUsed ≠ p.hunt.testLimit)
    (probe : p.mayProbe m)
    (best : ∀ j : Nat, p.mayProbe j →
      probeScore p.hunt.lo p.hunt.hi m < probeScore p.hunt.lo p.hunt.hi j ∨
        (probeScore p.hunt.lo p.hunt.hi m = probeScore p.hunt.lo p.hunt.hi j ∧ m ≤ j)) :
    plan p = deriveOrder { p with hunt := { p.hunt with probe := some m, doubtfulSeen := false, state := .ordering } } := by
  unfold plan
  rw [if_neg sections, if_neg tests, bestProbe_candidates probe best]

/-! ## An answer to the outstanding order (R134) -/

/-- A report completes an order (R134). -/
def SwitchOrder.completedBy (o : SwitchOrder) (b : Believed) : Prop :=
  o.action = .openSwitch ∧ b = .opened ∨ o.action = .closeSwitch ∧ b = .closed

theorem orderAnswered_completed {o : SwitchOrder} {b : Believed} {p : Part} (complete : o.completedBy b) :
    orderAnswered o b p =
      if p.hunt.state = .restoring then restoreStep (endSwitchOrder p) else deriveOrder (endSwitchOrder p) := by
  rcases complete with ⟨action, told⟩ | ⟨action, told⟩ <;>
    · simp only [orderAnswered, action, told]
      rfl

/-- A failed order that nothing can take the place of abandons the hunt (R134, R145). -/
theorem orderAnswered_failed {o : SwitchOrder} {b : Believed} {p : Part}
    (failed : o.action = .closeSwitch ∧ b ≠ .closed ∨ o.action = .openSwitch ∧ b ≠ .opened ∧ p.hunt.state = .restoring) :
    orderAnswered o b p = abandon .switchFailed none emptyCall p := by
  rw [← abandon_endSwitchOrder]
  rcases failed with ⟨action, told⟩ | ⟨action, told, state⟩
  · cases b with
    | closed => exact absurd rfl told
    | opened => simp only [orderAnswered, action]
    | unknown => simp only [orderAnswered, action]
  · have restoring : (endSwitchOrder p).hunt.state = .restoring := state
    cases b with
    | opened => exact absurd rfl told
    | closed => simp only [orderAnswered, action, restoring, if_true]
    | unknown => simp only [orderAnswered, action, restoring, if_true]

/-- An OPEN that failed in ORDERING marks its switch unusable, and the probe is chosen again (R134, R131). -/
theorem orderAnswered_retries {o : SwitchOrder} {b : Believed} {p : Part} (action : o.action = .openSwitch)
    (told : b ≠ .opened) (state : p.hunt.state = .ordering) :
    orderAnswered o b p =
      plan
        { p with
          hunt :=
            { p.hunt with
              outstanding := none, orderTimer := none, unusable := addPosition p.hunt.unusable o.position } } := by
  have notRestoring : (endSwitchOrder p).hunt.state ≠ .restoring := by
    change p.hunt.state ≠ .restoring
    simp [state]
  cases b with
  | opened => exact absurd rfl told
  | closed => simp only [orderAnswered, action, if_neg notRestoring]; rfl
  | unknown => simp only [orderAnswered, action, if_neg notRestoring]; rfl

/-! ## A report of no order, weighed as a disturbance (R135) -/

/-- The state that a switch is required to have while a hunt runs, by R135's three lines. -/
theorem requiredState_restoring {h : Hunt} (state : h.state = .restoring) (j : Nat) :
    requiredState h j =
      if h.lo = 0 ∨ h.lo < j then none else if j = h.lo then some .opened else some .closed := by
  simp only [requiredState, state]
  split_ifs <;> first | rfl | omega

theorem requiredState_testing {h : Hunt} (running : h.state.running = true) (state : h.state ≠ .restoring) {m : Nat}
    (probe : h.probe = some m) (j : Nat) :
    requiredState h j = if m < j then none else if j = m then some .opened else some .closed := by
  have shape : requiredState h j = if j < m then some .closed else if j = m then some .opened else none := by
    cases hs : h.state with
    | restoring => exact absurd hs state
    | ordering => simp only [requiredState, hs, probe]
    | testing => simp only [requiredState, hs, probe]
    | testTrip => simp only [requiredState, hs, probe]
    | idle => rw [hs] at running; exact absurd running (by decide)
    | concluded => rw [hs] at running; exact absurd running (by decide)
    | abandoned => rw [hs] at running; exact absurd running (by decide)
  rw [shape]
  split_ifs <;> first | rfl | omega

theorem requiredState_no_probe {h : Hunt} (state : h.state ≠ .restoring) (probe : h.probe = none) (j : Nat) :
    requiredState h j = none := by
  cases hs : h.state with
  | restoring => exact absurd hs state
  | ordering | testing | testTrip => simp only [requiredState, hs, probe]
  | idle | concluded | abandoned => simp only [requiredState, hs]

theorem disturbedAt_iff {h : Hunt} {before after : SectionTable} {j : Nat} :
    disturbedAt h before after j = true ↔
      requiredState h j = some (before.switch j).believed ∧ (after.switch j).believed ≠ (before.switch j).believed := by
  unfold disturbedAt
  split
  next b required =>
    rw [required, Bool.and_eq_true, decide_eq_true_iff, decide_eq_true_iff]
    constructor
    · rintro ⟨rfl, moved⟩
      exact ⟨rfl, moved⟩
    · rintro ⟨same, moved⟩
      obtain rfl := Option.some.inj same
      exact ⟨rfl, moved⟩
  next required => simp [required]

/-- A report leaves every required state as it was, and nothing else follows (R135). -/
theorem weighDisturbance_kept {p : Part} {ident : Nat} {b : Believed} (inTable : p.table.n.getD 0 ≤ p.table.switches.length)
    (kept : ∀ j : Nat, p.holds ident j = true → requiredState p.hunt j ≠ some (p.believed j) ∨ b = p.believed j) :
    weighDisturbance p.table (p.reportedWith ident b) = p.reportedWith ident b := by
  refine if_neg fun disturbed => ?_
  rw [Bool.and_eq_true, List.any_eq_true] at disturbed
  obtain ⟨-, j, hj, moved⟩ := disturbed
  unfold SectionTable.positions at hj
  rw [reportedWith_n] at hj
  obtain ⟨low, high⟩ := List.mem_range'_1.mp hj
  obtain ⟨required, moved⟩ := disturbedAt_iff.mp moved
  have after : ((p.reportedWith ident b).table.switch j).believed = p.believedAfter ident b j :=
    reportedWith_believed low (by omega)
  rw [after, Part.believedAfter] at moved
  split at moved
  next holds =>
    rcases kept j holds with other | same
    · exact other required
    · exact moved same
  next => exact moved rfl

/-- A report that takes a switch out of its required state abandons the hunt (R135). -/
theorem weighDisturbance_moved {p : Part} {ident : Nat} {b : Believed} {j : Nat}
    (inTable : p.table.n.getD 0 ≤ p.table.switches.length) (running : p.hunt.state.running = true)
    (holds : p.holds ident j = true) (required : requiredState p.hunt j = some (p.believed j)) (moved : b ≠ p.believed j) :
    weighDisturbance p.table (p.reportedWith ident b) = abandon .switchDisturbed none emptyCall (p.reportedWith ident b) := by
  obtain ⟨low, high, -⟩ := holds_iff.mp holds
  refine if_pos ?_
  rw [Bool.and_eq_true, List.any_eq_true]
  refine ⟨running, j, ?_, disturbedAt_iff.mpr ⟨required, ?_⟩⟩
  · unfold SectionTable.positions
    rw [reportedWith_n]
    exact List.mem_range'_1.mpr ⟨low, by omega⟩
  · have after : ((p.reportedWith ident b).table.switch j).believed = p.believedAfter ident b j :=
      reportedWith_believed low (by omega)
    rw [after, Part.believedAfter, if_pos holds]
    exact moved

end Sys2Proof.Machine
end SwitchReports

/-! SUPPORT. What a report of a switch leads to (07_earth_fault_hunt.md, R134, R135), and REPORT SWITCH taken. -/

section ReportSwitch
namespace Sys2Proof.Machine

/-! ## The next step after an answered order, on the reported states (R132, R134, R142) -/

/-- The hunt once an order has been issued (R132). -/
def Part.huntOrdered (p : Part) (j : Nat) (a : SwitchAction) (h : Hunt) : Hunt :=
  { h with
    outstanding := some ⟨h.nextOrder, j, (p.table.switch j).ident.getD 0, a⟩
    nextOrder := h.nextOrder + 1, ordersIssued := min (h.ordersIssued + 1) 255
    orderTimer := some (p.clock + p.table.timeout.getD 0 * 1000) }

theorem issueOrder_reported {p : Part} {ident j : Nat} {b : Believed} {a : SwitchAction} {h : Hunt}
    (opened : p.position = .opened) (operable : (p.table.switch j).operable = true) {x : Part}
    (hx : issueOrder j a { p.reportedWith ident b with hunt := h } = x) :
    x = { p with table := x.table, hunt := p.huntOrdered j a h, notices := x.notices } ∧
      x.table = (p.reportedWith ident b).table ∧ x.pendingFor .control .huntOrder = true := by
  obtain ⟨sameIdent, sameOperable⟩ := reportedWith_stored p ident b j
  rw [issueOrder_eq a (by exact opened) (by exact sameOperable.trans operable)] at hx
  subst hx
  refine ⟨?_, by simp only [raise_frame], (raise_pendingFor .huntOrder _ .control .huntOrder).trans (by simp)⟩
  rw [raise_eq]
  simp only [sameIdent, reportedWith_timeout]
  rfl

theorem orderAnswered_issues {p : Part} {ident j : Nat} {b : Believed} {o : SwitchOrder} {a : SwitchAction}
    (complete : o.completedBy b) (low : 1 ≤ j) (high : j ≤ p.table.switches.length)
    (closed : ∀ i : Nat, 1 ≤ i → i < j → p.believedAfter ident b i = .closed)
    (next : (∃ m : Nat, p.hunt.state = .ordering ∧ p.hunt.probe = some m ∧
        (j < m ∧ a = .closeSwitch ∧ p.believedAfter ident b j ≠ .closed ∨
          j = m ∧ a = .openSwitch ∧ p.believedAfter ident b m ≠ .opened)) ∨
      p.hunt.state = .restoring ∧ j < p.hunt.lo ∧ p.hunt.lo ≤ p.table.switches.length ∧
        p.believedAfter ident b p.hunt.lo = .opened ∧ a = .closeSwitch ∧ p.believedAfter ident b j ≠ .closed) :
    orderAnswered o b (p.reportedWith ident b) =
      issueOrder j a
        { p.reportedWith ident b with hunt := { p.hunt with outstanding := none, orderTimer := none } } := by
  have believed : ∀ i : Nat, 1 ≤ i → i ≤ p.table.switches.length →
      (endSwitchOrder (p.reportedWith ident b)).believed i = p.believedAfter ident b i :=
    fun i h1 h2 => reportedWith_believed h1 h2
  have below : (endSwitchOrder (p.reportedWith ident b)).closedBelow j := fun i h1 h2 =>
    (believed i h1 (by omega)).trans (closed i h1 h2)
  rw [orderAnswered_completed complete]
  rcases next with ⟨m, state, probe, step⟩ | ⟨state, beneath, inTable, opened, rfl, notClosed⟩
  · rw [if_neg (by rw [show (p.reportedWith ident b).hunt.state = .ordering from state]; decide)]
    rcases step with ⟨beneath, rfl, notClosed⟩ | ⟨rfl, rfl, notOpen⟩
    · exact deriveOrder_closes (p := endSwitchOrder (p.reportedWith ident b)) probe low beneath below
        (by rw [believed j low high]; exact notClosed)
    · exact deriveOrder_opens (p := endSwitchOrder (p.reportedWith ident b)) probe below
        (by rw [believed j low high]; exact notOpen)
  · rw [if_pos (by exact state)]
    exact restoreStep_closes (p := endSwitchOrder (p.reportedWith ident b))
      (by rw [show (endSwitchOrder (p.reportedWith ident b)).hunt.lo = p.hunt.lo from rfl, believed _ (by omega) inTable]; exact opened)
      low beneath below (by rw [believed j low high]; exact notClosed)

/-- The configuration is met: the close of the hunt's state becomes due (R132, R137, R142). -/
theorem orderAnswered_met {p : Part} {ident m : Nat} {b : Believed} {o : SwitchOrder}
    (complete : o.completedBy b) (low : 1 ≤ m) (high : m ≤ p.table.switches.length)
    (opened : p.believedAfter ident b m = .opened)
    (closed : ∀ i : Nat, 1 ≤ i → i < m → p.believedAfter ident b i = .closed)
    (wanted : p.hunt.state = .ordering ∧ p.hunt.probe = some m ∨ p.hunt.state = .restoring ∧ p.hunt.lo = m) :
    orderAnswered o b (p.reportedWith ident b) =
      closeBecomesDue (if p.hunt.state = .restoring then .restore else .test)
        { p.reportedWith ident b with hunt := { p.hunt with outstanding := none, orderTimer := none } } := by
  have believed : ∀ i : Nat, 1 ≤ i → i ≤ p.table.switches.length →
      (endSwitchOrder (p.reportedWith ident b)).believed i = p.believedAfter ident b i :=
    fun i h1 h2 => reportedWith_believed h1 h2
  have below : (endSwitchOrder (p.reportedWith ident b)).closedBelow m := fun i h1 h2 =>
    (believed i h1 (by omega)).trans (closed i h1 h2)
  rw [orderAnswered_completed complete]
  rcases wanted with ⟨state, probe⟩ | ⟨state, rfl⟩
  · rw [if_neg (by rw [show (p.reportedWith ident b).hunt.state = .ordering from state]; decide), if_neg (by rw [state]; decide)]
    exact deriveOrder_met (p := endSwitchOrder (p.reportedWith ident b)) probe below (by rw [believed m low high]; exact opened)
  · rw [if_pos (by exact state), if_pos state]
    exact restoreStep_met (p := endSwitchOrder (p.reportedWith ident b)) low (by
      rw [show (endSwitchOrder (p.reportedWith ident b)).hunt.lo = p.hunt.lo from rfl, believed _ low high]
      exact opened) below

/-- A failed OPEN in ORDERING: the best switch that is left is ordered OPEN (R134, R131). -/
theorem orderAnswered_reprobes {p : Part} {ident m limit : Nat} {b : Believed} {o : SwitchOrder}
    (action : o.action = .openSwitch) (told : b ≠ .opened) (state : p.hunt.state = .ordering)
    (tests : p.hunt.testLimit = some limit) (left : p.hunt.testsUsed ≠ limit) (above : p.hunt.lo < m) (within' : m ≤ p.hunt.hi)
    (usable : (p.table.switch m).operable = true ∧ hasPosition (addPosition p.hunt.unusable o.position) m = false)
    (best : ∀ j : Nat, p.hunt.lo < j → j ≤ p.hunt.hi →
      ((p.table.switch j).operable = true ∧ hasPosition (addPosition p.hunt.unusable o.position) j = false) →
      probeScore p.hunt.lo p.hunt.hi m < probeScore p.hunt.lo p.hunt.hi j ∨
        (probeScore p.hunt.lo p.hunt.hi m = probeScore p.hunt.lo p.hunt.hi j ∧ m ≤ j))
    (high : m ≤ p.table.switches.length) (closed : ∀ i : Nat, 1 ≤ i → i < m → p.believedAfter ident b i = .closed)
    (notOpen : p.believedAfter ident b m ≠ .opened) :
    orderAnswered o b (p.reportedWith ident b) =
      issueOrder m .openSwitch
        { p.reportedWith ident b with
          hunt :=
            { p.hunt with
              outstanding := none, orderTimer := none, unusable := addPosition p.hunt.unusable o.position
              probe := some m, doubtfulSeen := false, state := .ordering } } := by
  obtain ⟨q, hq⟩ : ∃ q : Part, q =
      { p.reportedWith ident b with
        hunt :=
          { p.hunt with
            outstanding := none, orderTimer := none, unusable := addPosition p.hunt.unusable o.position } } := ⟨_, rfl⟩
  have mayProbe : ∀ j : Nat, q.mayProbe j ↔ p.hunt.lo < j ∧ j ≤ p.hunt.hi ∧ (p.table.switch j).operable = true ∧
      hasPosition (addPosition p.hunt.unusable o.position) j = false := fun j => by
    have operable := (reportedWith_stored p ident b j).2
    rw [hq]
    unfold Part.mayProbe
    rw [← operable]
  have probe : q.mayProbe m := (mayProbe m).mpr ⟨above, within', usable.1, usable.2⟩
  have planned := plan_derives (p := q) (by rw [hq]; change p.hunt.lo ≠ p.hunt.hi; omega)
    (by rw [hq]; change some p.hunt.testsUsed ≠ p.hunt.testLimit; rw [tests]; simpa using left) probe (fun j hj => by
      obtain ⟨h1, h2, h3, h4⟩ := (mayProbe j).mp hj
      rw [hq]
      exact best j h1 h2 ⟨h3, h4⟩)
  rw [orderAnswered_retries action told (by exact state)]
  have believed : ∀ i : Nat, 1 ≤ i → i ≤ p.table.switches.length →
      Part.believed { q with hunt := { q.hunt with probe := some m, doubtfulSeen := false, state := .ordering } } i =
        p.believedAfter ident b i := fun i h1 h2 => by
    rw [hq]
    exact reportedWith_believed h1 h2
  have derived := deriveOrder_opens (p := { q with hunt := { q.hunt with probe := some m, doubtfulSeen := false, state := .ordering } })
    (m := m) rfl (fun i h1 h2 => (believed i h1 (by omega)).trans (closed i h1 h2))
    (by rw [believed m (by omega) high]; exact notOpen)
  rw [hq] at planned derived
  exact planned.trans derived

/-! ## Abandonment by a report (R134, R135) -/

/-- What every abandonment leaves (R146, items 1 to 4). -/
structure HuntLeft (reason : HuntReason) (detail : Option HuntDetail) (p q : Part) : Prop where
  hunt : ∃ pending : Bool, q.hunt = p.hunt.abandonedBy reason detail pending
  list : q.hasBlock .hunt = false
  huntEnd : ∀ x : Master, q.pendingFor x .huntEnd = true
  posture : q.posture = p.posture
  intake : q.intake = p.intake
  store : q.store = p.store
  clock : q.clock = p.clock
  table : q.table = p.table

theorem HuntEnded.left {reason : HuntReason} {detail : Option HuntDetail} {p q : Part} (h : HuntEnded reason detail p q)
    (clock : q.clock = p.clock) (table : q.table = p.table) : HuntLeft reason detail p q :=
  ⟨⟨_, h.hunt⟩, h.list, fun x => (h.pending x).1, h.posture, h.intake, h.store, clock, table⟩

/-- A request of REPORT SWITCH as its service side answers it. -/
theorem exec_reportSwitch {k : LinkId} {ident state : Byte} {reference : Half} {s : State} (h : s.toPart.serves k .control)
    {x : Part} {reply : Reply}
    (taken : askReportSwitch ident state reference (s.toPart.found k .control (.reportSwitch ident state reference)) =
      (x, reply)) :
    exec (.reportSwitch k ident state reference) s =
      .next (s.withPart (x.answer k (.reportSwitch ident state reference) reply)) :=
  exec_command_eq h (r := .reportSwitch ident state reference) rfl taken

/-- An answer given changes the links alone. -/
theorem answer_eq (k : LinkId) (r : Request) (reply : Reply) (x : Part) :
    x.answer k r reply = { x with links := (x.answer k r reply).links } := rfl

theorem issued_answer {p x : Part} {h : Hunt} (eq : x = { p with table := x.table, hunt := h, notices := x.notices })
    (k : LinkId) (r : Request) (reply : Reply) :
    x.answer k r reply =
      { p with
        table := (x.answer k r reply).table, hunt := h, notices := (x.answer k r reply).notices
        links := (x.answer k r reply).links } := by
  generalize hl : (x.answer k r reply).links = links
  have kept : x.answer k r reply = { x with links := links } := by rw [← hl, ← answer_eq]
  rw [kept, eq]

/-- With no hunt running nothing is disturbed (R135). -/
theorem weighDisturbance_still {p : Part} (before : SectionTable) (still : p.hunt.state.running = false) :
    weighDisturbance before p = p :=
  if_neg (by rw [still]; exact Bool.false_ne_true)

/-- A part that the Hunt holds is held after a report too. -/
theorem heldByHunt_reported {p : Part} (h : p.heldByHunt) (ident : Nat) (b : Believed) : (p.reportedWith ident b).heldByHunt :=
  ⟨h.running, h.held, h.sound, h.own⟩

/-- An abandonment by a failed order, from the part whose order has ended (R134). -/
theorem orderAnswered_failed_spec {o : SwitchOrder} {b : Believed} {p : Part}
    (failed : o.action = .closeSwitch ∧ b ≠ .closed ∨ o.action = .openSwitch ∧ b ≠ .opened ∧ p.hunt.state = .restoring)
    (sound : p.seq.failureNoted = false) (own : p.mech.order = .close → p.mech.placer = some .hunt) :
    HuntAbandoned .switchFailed none {} none (endSwitchOrder p) (orderAnswered o b p) := by
  rw [orderAnswered_failed failed, ← abandon_endSwitchOrder]
  exact abandon_spec none {} none (by simp) sound own

/-- The part whose close due has been placed, with its answer given (R138, R143). -/
theorem duePlaced_answer {p x : Part} {u : SectionTable} {g : Hunt} {due : CloseDue} (some' : due ≠ .none)
    (hx : x = if due = .test then Part.testClosePlaced { p with table := u, hunt := g }
      else Part.restoreClosePlaced { p with table := u, hunt := g }) (k : LinkId) (r : Request) (reply : Reply) :
    x.table = u ∧
      x.answer k r reply =
        { p with
          table := (x.answer k r reply).table
          links := (x.answer k r reply).links
          mech :=
            { p.mech with
              order := .close, placer := some .hunt, orderTimer := some (p.clock + 300), closeOutput := true
              travelTimer := none }
          elements :=
            { p.elements with
              closeKind := if due = .test then .huntTest else .huntRestore
              mode := if due = .test then .huntTest else p.elements.mode }
          hunt :=
            if due = .test then
              { g with
                state := .testing, testsUsed := g.testsUsed + 1, closeDue := .none, closeWaitTimer := none
                settleCount := 0, windowCount := 0, windowSum := 0, windowUnavailable := false }
            else { g with closeDue := .none, closeWaitTimer := none } } := by
  subst hx
  cases due with
  | none => exact absurd rfl some'
  | test => exact ⟨rfl, rfl⟩
  | restore => exact ⟨rfl, rfl⟩

/-- Settles O56. -/
theorem switchReportTaken : Obligations.SwitchReportTaken := by
  intro k ident state reference s hs r p runs held told now reported set valid taken
  have run : ∀ {x : Part} {reply : Reply}, askReportSwitch ident state reference p = (x, reply) →
      runs = .next (s.withPart (x.answer k r reply)) := fun asked => exec_reportSwitch hs asked
  refine ⟨fun outside => run (askReportSwitch_outOfRange outside), fun hv absent => run (askReportSwitch_notFound hv.1 hv.2 absent),
    fun hv holds => ?_⟩
  have isReported : reported (p.reportedWith ident.toNat told).table := tableReported p ident.toNat told
  have asked : askReportSwitch ident state reference p =
      if p.hunt.misnamed ident.toNat reference.toNat then (p, Reply.bare .outOfRange)
      else reportTaken told reference.toNat p.table (p.reportedWith ident.toNat told) := askReportSwitch_held hv.1 hv.2 holds
  have takes : ∀ {x : Part}, askReportSwitch ident state reference p = (x, Reply.done []) → reported x.table →
      taken 0 (s.withPart (x.answer k r (Reply.done []))) := fun asked hx => ⟨run asked, hx, answer_get _ _ _ _⟩
  have unreferenced : ∀ {x : Part}, 255 < reference.toNat → weighDisturbance p.table (p.reportedWith ident.toNat told) = x →
      askReportSwitch ident state reference p = (x, Reply.done []) := fun above weighed => by
    rw [← weighed]
    exact asked.trans ((if_neg (by rw [misnamed_of_referred_none (referred_none_of_above above)]; decide)).trans
      (reportTaken_unreferenced above))
  refine ⟨fun o outstanding number other => run (asked.trans (if_pos ?_)), fun above still => ?_, fun low other => ?_,
    fun inTable => ?_⟩
  · rw [misnamed_of_referred (referred_some outstanding number)]
    exact decide_eq_true other
  · have idle := weighDisturbance_still (p := p.reportedWith ident.toNat told) p.table still
    exact ⟨s.withPart ((p.reportedWith ident.toNat told).answer k r (Reply.done [])),
      takes (unreferenced above idle) isReported, rfl, isReported⟩
  · have none := referred_none other
    exact ⟨s.withPart ((p.reportedWith ident.toNat told).answer k r (Reply.bare .tooLate)),
      ⟨run (asked.trans ((if_neg (by rw [misnamed_of_referred_none none]; decide)).trans (reportTaken_tooLate low none))),
      isReported, answer_get _ _ _ _⟩, rfl, isReported⟩
  intro h done closedBelow due met next ordered issued abandoned leads backInLockout
  have issuedBy : ∀ {j : Nat} {a : SwitchAction} {g : Hunt},
      askReportSwitch ident state reference p =
        (issueOrder j a { p.reportedWith ident.toNat told with hunt := g }, Reply.done []) →
      p.position = .opened → (p.table.switch j).operable = true → ∃ t : State, issued (p.huntOrdered j a g) t := by
    intro j a g asks opened operable
    obtain ⟨x, hx⟩ : ∃ x : Part, issueOrder j a { p.reportedWith ident.toNat told with hunt := g } = x := ⟨_, rfl⟩
    obtain ⟨eq, table, pending⟩ := issueOrder_reported opened operable hx
    rw [hx] at asks
    exact ⟨s.withPart (x.answer k r (Reply.done [])), takes asks (table ▸ isReported), pending, issued_answer eq k r _⟩
  have abandonedBy : ∀ {reason : HuntReason} {x : Part}, askReportSwitch ident state reference p = (x, Reply.done []) →
      HuntLeft reason none (p.reportedWith ident.toNat told) x → abandoned reason (s.withPart (x.answer k r (Reply.done []))) := by
    intro reason x asks left
    obtain ⟨pending, hunt⟩ := left.hunt
    exact ⟨takes asks (left.table ▸ isReported), congrArg Hunt.state hunt, congrArg Hunt.outstanding hunt,
      congrArg Hunt.orderTimer hunt, congrArg Hunt.closeDue hunt, left.list, congrArg Hunt.result hunt, left.huntEnd,
      left.posture, left.intake, left.store, left.clock⟩
  have leadsTo : ∀ {g : Hunt} {does : Part → Part → Prop} {x : Part},
      askReportSwitch ident state reference p = (x, Reply.done []) →
      does { p.reportedWith ident.toNat told with hunt := g } x → leads g does :=
    fun asks hx => ⟨_, _, isReported, run asks, hx⟩
  refine ⟨fun o outstanding number named => ?_, fun above running => ?_⟩
  · intro complete failed
    have answers : ∀ {x : Part}, h.state.running = true → orderAnswered o told (p.reportedWith ident.toNat told) = x →
        askReportSwitch ident state reference p = (x, Reply.done []) := fun running answered => by
      rw [← answered]
      have referred := referred_some (h := p.hunt) outstanding number
      refine asked.trans ((if_neg ?_).trans (reportTaken_answered (by exact referred) running))
      rw [misnamed_of_referred referred, named]
      simp
    have failsHow : failed → (o.action = .closeSwitch ∧ told ≠ .closed ∨ o.action = .openSwitch ∧ told ≠ .opened ∧
        (p.reportedWith ident.toNat told).hunt.state = .restoring) ∧ h.state.running = true := by
      rintro (⟨action, notClosed, state | state⟩ | ⟨action, notOpen, state⟩)
      · exact ⟨.inl ⟨action, notClosed⟩, by rw [state]; rfl⟩
      · exact ⟨.inl ⟨action, notClosed⟩, by rw [state]; rfl⟩
      · exact ⟨.inr ⟨action, notOpen, state⟩, by rw [state]; rfl⟩
    refine ⟨fun j a complete' step => ?_, fun complete' ⟨m, low, high, opened', below, wanted⟩ order opened energy hotLine mechanism
      live => ?_, fun complete' ⟨m, low, high, opened', below, wanted⟩ missing => ?_, fun m limit action notOpen state tests left above
      within' opened => ?_, fun fails opened order sound => ?_, fun heldBy => ?_⟩
    · obtain ⟨low, high, below, operable, opened, step⟩ := step
      have running : h.state.running = true := by
        rcases step with ⟨m, state, -⟩ | ⟨state, -⟩ <;> rw [state] <;> rfl
      exact issuedBy (answers running (orderAnswered_issues complete' low high below step)) opened operable
    · have running : h.state.running = true := by
        rcases wanted with ⟨state, -⟩ | ⟨state, -⟩ <;> rw [state] <;> rfl
      have some' : due ≠ .none := by
        change (if h.state = .restoring then CloseDue.restore else .test) ≠ .none
        split <;> simp
      have accepted : closeRefusal
          { p.reportedWith ident.toNat told with hunt := { p.hunt with outstanding := none, orderTimer := none } } = none :=
        closeRefusal_eq_none_iff.mpr ⟨order, opened, energy, hotLine, mechanism⟩
      have placed := (orderAnswered_met complete' low high opened' below wanted).trans
        (closeBecomesDue_placed some' live energy accepted)
      obtain ⟨table, toPart⟩ := duePlaced_answer (p := p) some' placed k r (Reply.done [])
      exact ⟨_, takes (answers running rfl) (table ▸ isReported), toPart⟩
    · have running : h.state.running = true := by
        rcases wanted with ⟨state, -⟩ | ⟨state, -⟩ <;> rw [state] <;> rfl
      have waits := (orderAnswered_met complete' low high opened' below wanted).trans
        (closeBecomesDue_waits (due := due) missing)
      exact ⟨_, takes (answers running waits) isReported, rfl⟩
    · intro marked usable isUsable best high below notYet
      have running : h.state.running = true := by
        rw [state]
        rfl
      have reprobes := orderAnswered_reprobes action notOpen state tests left above within' isUsable best high below notYet
      obtain ⟨t, taken', pending, toPart⟩ := issuedBy (answers running reprobes) opened isUsable.1
      refine ⟨t, taken', pending, toPart.trans ?_⟩
      simp only [Part.huntOrdered, ← state]
      rfl
    · obtain ⟨how, running⟩ := failsHow fails
      have spec : HuntAbandoned .switchFailed none {} none (p.reportedWith ident.toNat told)
          (abandon .switchFailed none emptyCall (p.reportedWith ident.toNat told)) :=
        abandon_spec none {} none (by simp) sound fun close => absurd (order.symm.trans close) (by simp)
      obtain ⟨ended, clock, table⟩ := spec.ended opened order
      have asks := answers running (orderAnswered_failed how)
      exact ⟨_, abandonedBy asks (ended.left clock table), congrArg Sequencer.state ended.seq,
        congrArg Sequencer.lockoutReason ended.seq, ended.mech, ended.records, fun x => (ended.pending x).2⟩
    · have heldBy' := heldByHunt_reported heldBy ident.toNat told
      refine ⟨fun fails => ?_, fun opened action notOpen state => ?_, fun m complete' state probe => ⟨fun opened => ?_,
        fun notOpened unmet low high operable => ?_⟩, fun opened complete' state => ?_⟩
      · exact leadsTo (answers heldBy.running rfl) (orderAnswered_failed_spec (failsHow fails).1 heldBy'.sound heldBy'.own)
      · exact leadsTo (answers heldBy.running (orderAnswered_retries action notOpen (by exact state)))
          (plan_spec (by exact opened) heldBy'.sound heldBy'.own)
      · have derives : orderAnswered o told (p.reportedWith ident.toNat told) =
            deriveOrder (endSwitchOrder (p.reportedWith ident.toNat told)) :=
          (orderAnswered_completed complete').trans (if_neg (by
            rw [show (p.reportedWith ident.toNat told).hunt.state = .ordering from state]
            decide))
        exact leadsTo (answers heldBy.running derives)
          (deriveOrder_spec (p := endSwitchOrder (p.reportedWith ident.toNat told)) probe opened heldBy'.sound heldBy'.own)
      · have derives : orderAnswered o told (p.reportedWith ident.toNat told) =
            deriveOrder (endSwitchOrder (p.reportedWith ident.toNat told)) :=
          (orderAnswered_completed complete').trans (if_neg (by
            rw [show (p.reportedWith ident.toNat told).hunt.state = .ordering from state]
            decide))
        have believed : ∀ i : Nat, 1 ≤ i → i ≤ m →
            (endSwitchOrder (p.reportedWith ident.toNat told)).believed i = now i := fun i h1 h2 =>
          reportedWith_believed (p := p) h1 (by omega)
        obtain ⟨j, a, issues⟩ := deriveOrder_issues (p := endSwitchOrder (p.reportedWith ident.toNat told)) probe
          fun ⟨closed, opened'⟩ => unmet ⟨fun i h1 h2 => (believed i h1 (by omega)).symm.trans (closed i h1 h2),
            (believed m low le_rfl).symm.trans opened'⟩
        rw [issueOrder_of_not_opened j a (by exact notOpened)] at issues
        exact leadsTo (answers heldBy.running (derives.trans issues))
          (abandon_spec none {} none (by simp) heldBy'.sound heldBy'.own)
      · have steps : orderAnswered o told (p.reportedWith ident.toNat told) =
            restoreStep (endSwitchOrder (p.reportedWith ident.toNat told)) :=
          (orderAnswered_completed complete').trans (if_pos state)
        exact leadsTo (answers heldBy.running steps)
          (restoreStep_spec (p := endSwitchOrder (p.reportedWith ident.toNat told)) opened heldBy'.sound heldBy'.own)
  · intro required
    have asRequired : ∀ j : Nat, required j = requiredState p.hunt j := by
      intro j
      by_cases state : p.hunt.state = .restoring
      · rw [requiredState_restoring state]
        exact if_pos state
      · refine (if_neg state).trans ?_
        cases probe : p.hunt.probe with
        | none => rw [requiredState_no_probe state probe]
        | some m => rw [requiredState_testing running state probe]
    refine ⟨fun kept => ?_, fun j holdsIt requires moved => ?_⟩
    · have unmoved := weighDisturbance_kept (p := p) (ident := ident.toNat) (b := told) inTable
        fun j hj => (kept j hj).imp_left fun other => by rw [← asRequired]; exact other
      exact ⟨s.withPart ((p.reportedWith ident.toNat told).answer k r (Reply.done [])),
        takes (unreferenced above unmoved) isReported, rfl, isReported⟩
    · have disturbed := weighDisturbance_moved (p := p) (ident := ident.toNat) (b := told) inTable running holdsIt
        ((asRequired j).symm.trans requires) moved
      have asks := unreferenced above disturbed
      refine ⟨fun opened order sound => ?_, fun closed order => ?_, fun heldBy => ?_⟩
      · have spec : HuntAbandoned .switchDisturbed none {} none (p.reportedWith ident.toNat told)
            (abandon .switchDisturbed none emptyCall (p.reportedWith ident.toNat told)) :=
          abandon_spec none {} none (by simp) sound fun close => absurd (order.symm.trans close) (by simp)
        obtain ⟨ended, clock, table⟩ := spec.ended opened order
        exact ⟨_, abandonedBy asks (ended.left clock table), congrArg Sequencer.state ended.seq,
          congrArg Sequencer.lockoutReason ended.seq, ended.mech, ended.records, fun x => (ended.pending x).2⟩
      · have notOpen : p.position ≠ .opened := by rw [closed]; decide
        obtain ⟨notices, eq, raised⟩ := abandon_trips_left (reason := .switchDisturbed) none emptyCall
          (p := p.reportedWith ident.toNat told) (by simp) notOpen order
        obtain ⟨x, hx⟩ : ∃ x : Part, abandon .switchDisturbed none emptyCall (p.reportedWith ident.toNat told) = x := ⟨_, rfl⟩
        rw [hx] at asks eq raised
        have left : HuntLeft .switchDisturbed none (p.reportedWith ident.toNat told) x := by
          refine ⟨⟨true, ?_⟩, hasBlock_hunt_of_entriesLeft (p := p.reportedWith ident.toNat told) ?_, raised.1 _ (by simp),
            ?_, ?_, ?_, ?_, ?_⟩ <;> rw [eq]
        refine ⟨_, abandonedBy asks left, ?_, ?_, ?_, ⟨p.newRecord ⟨.hunt, {}, none, noPhases, noLanes, 0⟩, ?_, rfl, rfl, rfl, rfl⟩,
          fun y => ⟨raised.1 _ (by simp) y, raised.1 _ (by simp) y⟩⟩
        · change x.hunt.handBackPending = true
          rw [eq]
          rfl
        · change x.seq = p.seq
          rw [eq]
          rfl
        · change x.mech = _
          rw [eq]
          rfl
        · change x.records.ring.head? = _
          rw [eq]
          rfl
      · have heldBy' := heldByHunt_reported heldBy ident.toNat told
        exact leadsTo asks (abandon_spec none {} none (by simp) heldBy'.sound heldBy'.own)

end Sys2Proof.Machine
end ReportSwitch

/-! SUPPORT. The test of a hunt (07_earth_fault_hunt.md, R34, R139 to R143): its steps, its result, its trip and its decisions,
and what CLOSED and OPENED complete. -/

section HuntTests
namespace Sys2Proof.Machine

/-! ## The Hunt's trip and the range after a result (R139, R141, R143) -/

/-- The Hunt's trip placed in p, with its causes and lanes and no requester (R143, R47, R51). -/
def HuntTripped (p : Part) (c : Causes) (high : Phases Bool) (sotf : Quad Bool) (t : Part) : Prop :=
  (∃ f : FaultRecord, t.records.ring = (f :: p.records.ring).take 16 ∧ f.number = p.records.next ∧ f.origin = .hunt ∧
    f.causes = c ∧ f.requester = none ∧ f.highsetLanes = high ∧ f.sotfLanes = sotf ∧ f.shot = 0 ∧
    f.outcome = .pending ∧ f.active = p.posture.active ∧ f.level = p.posture.level) ∧
  t.records.pendingRecord = some p.records.next ∧ t.seq = p.seq ∧ t.posture = p.posture ∧ t.table = p.table ∧
  t.links = p.links ∧ t.store = p.store ∧ t.clock = p.clock ∧
  t.mech =
    { p.mech with
      order := .trip, placer := some .hunt, orderTimer := some (p.clock + 200), tripOutput := true
      closeOutput := decide (p.mech.order ≠ .close) && p.mech.closeOutput, travelTimer := none } ∧
  ∀ x : Master, t.pendingFor x .trip = true ∧ t.pendingFor x .record = true

theorem PlacedByHunt.tripped {c : TripCall} {p : Part} {f : FaultRecord} {t : Part} (h : PlacedByHunt c p f t)
    (unrequested : c.requester = none) : HuntTripped p c.causes c.highsetLanes c.sotfLanes t := by
  obtain ⟨number, origin, causes, requester, high, sotf, shot, outcome, active, level⟩ := h.record
  refine ⟨⟨f, congrArg Records.ring h.records, number, origin, causes, requester.trans unrequested, high, sotf, shot,
    outcome, active, level⟩, congrArg Records.pendingRecord h.records, ?_, ?_, ?_, ?_, ?_, ?_, h.mech, h.raised⟩ <;> rw [h.rest]

/-- The hunt after a result at probe m, a second DOUBTFUL taken as PRESENT (R139, R141). -/
def Hunt.tested (h : Hunt) (m : Nat) : TestResult → Hunt
  | .present => { h with state := .testTrip, hi := m - 1 }
  | .clear => { h with state := .testTrip, lo := m }
  | .doubtful =>
    if h.doubtfulSeen then { h with state := .testTrip, hi := m - 1 } else { h with state := .testTrip, doubtfulSeen := true }

theorem applyResult_taken {h : Hunt} {m : Nat} (probe : h.probe = some m) (r : TestResult) :
    applyResult (takenResult h.doubtfulSeen r) h = h.tested m r := by
  cases r with
  | present => simp [applyResult, takenResult, Hunt.tested, probe]
  | clear => simp [applyResult, takenResult, Hunt.tested, probe]
  | doubtful => cases seen : h.doubtfulSeen <;> simp [applyResult, takenResult, Hunt.tested, probe, seen]

/-- A result keeps the range in order (R141). -/
theorem tested_range {h : Hunt} {m : Nat} (above : h.lo < m) (below : m ≤ h.hi) (r : TestResult) :
    (h.tested m r).lo ≤ (h.tested m r).hi := by
  cases r with
  | present => simp only [Hunt.tested]; omega
  | clear => simp only [Hunt.tested]; omega
  | doubtful =>
    simp only [Hunt.tested]
    split
    · dsimp only; omega
    · dsimp only; omega

/-- What a test result leaves: the range, TEST_TRIP and the Hunt's trip (R139, R141). -/
theorem testResult_leaves (r : TestResult) {c : TripCall} {p : Part} {m : Nat} (probe : p.hunt.probe = some m)
    (unrequested : c.requester = none) (notOpen : p.position ≠ .opened)
    (order : p.mech.order = .none ∨ (p.mech.order = .close ∧ p.mech.placer = some .hunt)) :
    (testResult r c p).hunt = p.hunt.tested m r ∧ HuntTripped p c.causes c.highsetLanes c.sotfLanes (testResult r c p) ∧
      (testResult r c p).elements =
        { p.elements with
          episode := none
          closeKind := if p.mech.order = .close then .none else p.elements.closeKind
          mode := if p.mech.order = .close then .normal else p.elements.mode } ∧
      (testResult r c p).intake = p.intake ∧ (testResult r c p).entries = p.entries := by
  obtain ⟨f, placed⟩ := testResult_placed r c notOpen order
  rw [applyResult_taken probe] at placed
  refine ⟨?_, placed.tripped unrequested, placed.elements, ?_, ?_⟩ <;> rw [placed.rest]

/-- What an abandonment by a decision leaves (R140, R146). -/
theorem abandon_leaves {reason : HuntReason} {c : TripCall} {p : Part} (other : reason ≠ .mechanism)
    (unrequested : c.requester = none) (notOpen : p.position ≠ .opened)
    (order : p.mech.order = .none ∨ (p.mech.order = .close ∧ p.mech.placer = some .hunt)) :
    (abandon reason none c p).hunt = p.hunt.abandonedBy reason none true ∧
      HuntTripped p c.causes c.highsetLanes c.sotfLanes (abandon reason none c p) ∧
      (abandon reason none c p).elements =
        { p.elements with
          episode := none
          closeKind := if p.mech.order = .close then .none else p.elements.closeKind
          mode := if p.mech.order = .close then .normal else p.elements.mode } ∧
      (abandon reason none c p).intake = p.intake ∧ (abandon reason none c p).entries = p.entriesLeft ∧
      ∀ x : Master, (abandon reason none c p).pendingFor x .huntEnd = true := by
  obtain ⟨notices, f, placed, raised⟩ := abandon_placed none c other notOpen order
  refine ⟨?_, placed.tripped unrequested, placed.elements, ?_, ?_, raised.1 _ (by simp)⟩ <;> rw [placed.rest]

/-! ## The window's end as a command (R139) -/

theorem huntWindowEnded_ends {s : State} {m : Nat} (state : s.hunt.state = .testing) (order : s.mech.order = .none)
    (notOpen : s.toPart.position ≠ .opened) (probe : s.hunt.probe = some m) (above : s.hunt.lo < m) (below : m ≤ s.hunt.hi) :
    ∃ t : State, exec .huntTestWindowEnd s = .next t ∧ HuntTripped s.toPart {} noPhases noLanes t.toPart ∧
      (∃ sum : Nat, sum ≤ 1310680 ∧
        ∃ unseen : Bool,
          let w : Hunt :=
            { s.hunt with
              settleCount := 5, windowCount := 20, windowSum := sum
              windowUnavailable := s.hunt.windowUnavailable || unseen }
          t.hunt = w.tested m (windowResult w sum)) ∧
      t.hunt.lo ≤ t.hunt.hi ∧ t.elements = { s.elements with episode := none } ∧ t.entries = s.entries ∧
      t.intake = s.intake := by
  obtain ⟨w, hw⟩ : ∃ w : Hunt, w =
      { s.hunt with
        settleCount := 5, windowCount := 20, windowSum := s.toPart.unseenSum
        windowUnavailable := s.hunt.windowUnavailable || Config.unseenUnavailable s.clock s.hunt.windowCount } := ⟨_, rfl⟩
  have ends : huntWindowEnded s.toPart = testResult (windowResult w s.toPart.unseenSum) emptyCall { s.toPart with hunt := w } := by
    rw [hw]
    exact if_pos (by simp [Part.settling, state, order])
  obtain ⟨hunt, tripped, elements, intake, entries⟩ := testResult_leaves (windowResult w s.toPart.unseenSum) (c := emptyCall)
    (p := { s.toPart with hunt := w }) (m := m) (by rw [hw]; exact probe) rfl notOpen (.inl order)
  rw [← ends] at hunt tripped elements intake entries
  refine ⟨s.withPart (huntWindowEnded s.toPart), rfl, tripped, ⟨s.toPart.unseenSum, Nat.min_le_right _ _,
    Config.unseenUnavailable s.clock s.hunt.windowCount, ?_⟩, ?_, ?_, entries, intake⟩
  · rw [← hw]
    exact hunt
  · change (huntWindowEnded s.toPart).hunt.lo ≤ (huntWindowEnded s.toPart).hunt.hi
    rw [hunt]
    exact tested_range (by rw [hw]; exact above) (by rw [hw]; exact below) _
  · change (huntWindowEnded s.toPart).elements = _
    rw [elements]
    simp [order]

/-! ## The close of restoration and a decision (R56, R143) -/

theorem seqDecision_restoring {p : Part} (d : Decision) (held : p.seq.state = .huntHeld) (state : p.hunt.state = .restoring)
    (order : p.mech.order = .close) : seqDecision d p = abandon .restoreTrip none (decisionCall d) p := by
  simp only [seqDecision, held, huntDecision, state, order, if_true]

/-! ## CLOSED and OPENED in a test (R138, R141) -/

/-- CLOSED completes the test close: the order and the close kind end, and the Hunt stays as it is (R138, R19). -/
theorem closes_test {s : State} (started : s.started = true) (placer : s.mech.placer = some .hunt)
    (order : s.mech.order = .close) (moved : ¬(s.mech.openMade = false ∧ s.mech.closedMade = true))
    (settled : s.mech.settled = some .opened) (state : s.hunt.state = .testing) (kind : s.elements.closeKind = .huntTest) :
    exec (.contactChange false true) s =
      .next (s.withPart { s.toPart with
        mech := { s.toPart.closeCompleted.mech with settled := some .closed }
        elements := { s.elements with closeKind := .none } }) := by
  have done : closedTaken s.mech.placer s.toPart.closeCompleted = s.toPart.closeCompleted := by
    rw [placer]
    exact if_neg (by rw [show s.toPart.closeCompleted.hunt.state = .testing from state]; decide)
  have told : elementsClosed true (settle .closed s.toPart.closeCompleted) =
      { s.toPart with
        mech := { s.toPart.closeCompleted.mech with settled := some .closed }
        elements := { s.elements with closeKind := .none } } := by
    have kind' : (settle .closed s.toPart.closeCompleted).elements.closeKind = .huntTest := kind
    simp only [elementsClosed, kind']
    rfl
  rw [exec_contactChange_close started moved order settled, done, told]

/-- OPENED completes the test trip: what the Hunt takes is announced to Elements after it (R141, R42). -/
theorem opens_test {n : Nat} {s : State} (started : s.started = true) (placer : s.mech.placer = some .hunt)
    (order : s.mech.order = .trip) (moved : ¬(s.mech.openMade = true ∧ s.mech.closedMade = false))
    (settled : s.mech.settled = some .closed) (record : s.records.pendingRecord = some n) :
    exec (.contactChange true false) s =
      .next (s.withPart (elementsOpened (settle .opened (huntOpened (s.toPart.tripEnded n))))) := by
  have done : openedTaken s.mech.placer (s.toPart.tripEnded n) = huntOpened (s.toPart.tripEnded n) := by
    rw [placer]
    rfl
  rw [exec_contactChange_tripEnded started moved order settled record, done]

theorem elementsOpened_settled (q : Part) :
    elementsOpened (settle .opened q) =
      { q with
        mech := { q.mech with settled := some .opened }
        elements :=
          if q.mech.order = .close then
            { Elements.cleared with
              closeKind := q.elements.closeKind, mode := if q.elements.closeKind = .huntTest then .huntTest else .normal }
          else Elements.cleared } := by
  have test : (settle .opened q).inTestClose = (decide (q.mech.order = .close) && decide (q.elements.closeKind = .huntTest)) := rfl
  unfold elementsOpened
  rw [test]
  by_cases close : q.mech.order = .close
  · rw [if_pos close, if_pos (by exact close), decide_eq_true close]
    by_cases kind : q.elements.closeKind = .huntTest
    · rw [if_pos kind, decide_eq_true kind]
      rfl
    · rw [if_neg kind, decide_eq_false kind]
      rfl
  · rw [if_neg close, if_neg (by exact close), decide_eq_false close]
    rfl

/-- After PRESENT or CLEAR the next step is planned; after a first DOUBTFUL, which leaves the probe within the range, the same
probe is derived afresh, or at the limit restoration is entered (R141). -/
theorem huntOpened_test {p : Part} (notPending : p.hunt.handBackPending = false) (state : p.hunt.state = .testTrip) :
    ((∀ m : Nat, ¬(p.hunt.probe = some m ∧ p.hunt.lo < m ∧ m ≤ p.hunt.hi)) → huntOpened p = plan p) ∧
    (∀ m : Nat, p.hunt.probe = some m ∧ p.hunt.lo < m ∧ m ≤ p.hunt.hi →
      (some p.hunt.testsUsed = p.hunt.testLimit → huntOpened p = enterRestoration .limitReached p) ∧
      (some p.hunt.testsUsed ≠ p.hunt.testLimit →
        huntOpened p = deriveOrder { p with hunt := { p.hunt with state := .ordering } })) := by
  have opened : huntOpened p =
      if p.hunt.retests then
        if some p.hunt.testsUsed = p.hunt.testLimit then enterRestoration .limitReached p
        else deriveOrder { p with hunt := { p.hunt with state := .ordering } }
      else plan p := by
    unfold huntOpened
    rw [if_neg (by simp [notPending]), if_pos state]
  have retests : ∀ m : Nat, p.hunt.probe = some m → (p.hunt.retests = true ↔ p.hunt.lo < m ∧ m ≤ p.hunt.hi) := fun m probe => by
    simp [Hunt.retests, probe]
  rw [opened]
  refine ⟨fun never => if_neg fun again => ?_, fun m ⟨probe, above, below⟩ => ?_⟩
  · cases probe : p.hunt.probe with
    | none => simp [Hunt.retests, probe] at again
    | some m => exact never m ⟨probe, (retests m probe).mp again⟩
  · rw [if_pos ((retests m probe).mpr ⟨above, below⟩)]
    exact ⟨fun limit => if_pos limit, fun more => if_neg more⟩

/-! ## A running step in HUNT_TEST mode (R34) -/

/-- The lanes at their pickups on a step in HUNT_TEST mode (R28, R30, R34). -/
def Part.testLanes (p : Part) : Quad Bool := reachedLanes p.settings p.elements.coldLoad.isSome p.intake.channels

/-- The high-set counts after a step in HUNT_TEST mode (R25, R34). -/
def Part.testHighs (p : Part) : Phases Nat := stepHighsets p.settings p.intake.channels p.elements.highset

/-- The high-set lanes that trip on a step in HUNT_TEST mode (R25, R34). -/
def Part.testHighLanes (p : Part) : Phases Bool := highsetLanes p.settings p.intake.channels p.testHighs

/-- The causes of a step in HUNT_TEST mode (R34, R36). -/
def Part.testCauses (p : Part) : Causes := { highset := anyPhase p.testHighLanes, sotf := anyLane p.testLanes }

/-- The part after a running step in HUNT_TEST mode, before it is handed to the Hunt (R34, R30, R31). -/
def Part.testRun (p : Part) : Part :=
  let ch := p.intake.channels
  let sefPicked := ch.n.atLeast (p.settings.sefPickup.getD 0)
  let quiet : Bool := !(anyLane p.testLanes || sefPicked)
  { p with
    elements :=
      { p.elements with
        highset := p.testHighs, mask := p.testLanes, sefPicked := sefPicked
        episode :=
          match p.elements.episode with
          | some e => e.step quiet ch
          | none => if p.elements.maskEmpty = true ∧ quiet = false then some (startEpisode p.uptime ch) else none
        openCount := if p.position = .closed then p.elements.openCount else min (p.elements.openCount + 1) 360000 }
    intake := { p.intake with absentSeen := Quad.zip (fun c b => b || !c.available) ch p.intake.absentSeen } }

theorem countOpen_eq (p : Part) :
    countOpen p =
      { p with
        elements :=
          { p.elements with
            openCount := if p.position = .closed then p.elements.openCount else min (p.elements.openCount + 1) 360000 } } := by
  unfold countOpen
  split <;> rfl

theorem stepOutcome_huntTest {p : Part} (mode : p.elements.mode = .huntTest) :
    stepOutcome p.settings p.elements p.intake.channels =
      ⟨p.elements.acc, p.testHighs, p.elements.sef, ⟨p.testCauses, p.testHighLanes, p.testLanes⟩⟩ := by
  simp only [stepOutcome, mode]
  rfl

theorem elementsRun_huntTest {p : Part} (mode : p.elements.mode = .huntTest) : elementsRun (countOpen p) = p.testRun := by
  have outcome := stepOutcome_huntTest (p := countOpen p) (by rw [countOpen_eq]; exact mode)
  unfold elementsRun
  rw [outcome, countOpen_eq]
  unfold Part.testRun
  cases held : p.elements.episode with
  | none =>
    simp only [Elements.record, held]
    congr 2
    simp only [Bool.and_eq_true, Bool.not_eq_true']
    rfl
  | some e =>
    simp only [Elements.record, held]
    rfl

/-- A running step in HUNT_TEST mode is handed to the Hunt, and then its decision is routed (R34, R37). -/
theorem elementsStep_huntTest {p : Part} (mode : p.elements.mode = .huntTest)
    (running : p.position = .closed ∨ (p.position = .travel ∧ p.mech.order = .close)) :
    elementsStep p =
      routeDecision .huntTest ⟨p.testCauses, p.testHighLanes, p.testLanes⟩ (huntStep p.intake.channels.n p.testRun) := by
  have runs : (countOpen p).runs = true := by
    rw [countOpen_runs]
    rcases running with closed | ⟨travel, order⟩
    · simp [Part.runs, closed]
    · simp [Part.runs, travel, order]
  have mode' : (countOpen p).elements.mode = .huntTest := by
    rw [countOpen_eq]
    exact mode
  have outcome : stepOutcome (countOpen p).settings (countOpen p).elements (countOpen p).intake.channels =
      ⟨p.elements.acc, p.testHighs, p.elements.sef, ⟨p.testCauses, p.testHighLanes, p.testLanes⟩⟩ := by
    rw [stepOutcome_huntTest mode', countOpen_eq]
    rfl
  have channels : (countOpen p).intake.channels = p.intake.channels := by rw [countOpen_eq]
  have step : elementsStep p = runningStep (countOpen p) := if_pos runs
  rw [step, runningStep, mode', outcome, channels, elementsRun_huntTest mode]
  rfl

theorem magnitude_getD (c : Channel) :
    c.magnitude.getD 0 = if c.available then (if c.isClipped then 65534 else c.value.getD 0) else 0 := by
  unfold Channel.magnitude
  split <;> rfl

/-- The counts of a test window after one more step (R139). -/
def Hunt.summedWith (h : Hunt) (n : Channel) : Hunt :=
  { h with
    windowCount := h.windowCount + 1
    windowSum := h.windowSum + if n.available then (if n.isClipped then 65534 else n.value.getD 0) else 0
    windowUnavailable := h.windowUnavailable || !n.available }

/-- The counts of a test after a step that does not end its window (R139). -/
def Hunt.countedWith (h : Hunt) (stroke : Bool) (n : Channel) : Hunt :=
  if stroke then h
  else if h.settleCount < 5 then { h with settleCount := h.settleCount + 1 }
  else h.summedWith n

/-- A step moves nothing but the counts. -/
theorem countedWith_eq (h : Hunt) (stroke : Bool) (n : Channel) :
    h.countedWith stroke n =
      { h with
        settleCount := (h.countedWith stroke n).settleCount, windowCount := (h.countedWith stroke n).windowCount
        windowSum := (h.countedWith stroke n).windowSum
        windowUnavailable := (h.countedWith stroke n).windowUnavailable } := by
  unfold Hunt.countedWith
  split
  · rfl
  · split <;> rfl

/-- PRESENT after a counted step moves the counts besides (R140, R141). -/
theorem tested_counted (h : Hunt) (stroke : Bool) (n : Channel) (m : Nat) {x : Hunt}
    (hx : x = (h.countedWith stroke n).tested m .present) :
    x =
      { h with
        state := .testTrip, hi := m - 1, settleCount := x.settleCount, windowCount := x.windowCount, windowSum := x.windowSum
        windowUnavailable := x.windowUnavailable } := by
  rw [hx, countedWith_eq]
  rfl

/-- An abandonment after a counted step moves the counts besides (R140, R146). -/
theorem abandonedBy_counted (h : Hunt) (stroke : Bool) (n : Channel) (reason : HuntReason) {x : Hunt}
    (hx : x = (h.countedWith stroke n).abandonedBy reason none true) :
    x =
      { h.abandonedBy reason none true with
        settleCount := x.settleCount, windowCount := x.windowCount, windowSum := x.windowSum
        windowUnavailable := x.windowUnavailable } := by
  rw [hx, countedWith_eq]
  rfl

theorem huntStep_of_not_settling {p : Part} (n : Channel) (h : p.hunt.state ≠ .testing ∨ p.mech.order ≠ .none) :
    huntStep n p = p := by
  have unsettled : p.settling = false := by
    rcases h with h | h <;> simp [Part.settling, h]
  exact if_neg (by rw [unsettled]; exact Bool.false_ne_true)

/-- A step that does not end the window is counted (R139). -/
theorem huntStep_counts {p : Part} (n : Channel) (state : p.hunt.state = .testing)
    (order : p.mech.order = .none ∨ p.mech.order = .close)
    (more : (!decide (p.mech.order = .close) && decide (5 ≤ p.hunt.settleCount) && decide (20 ≤ p.hunt.windowCount + 1)) =
      false) :
    huntStep n p = { p with hunt := p.hunt.countedWith (decide (p.mech.order = .close)) n } := by
  rcases order with none | close
  · have settling : p.settling = true := by simp [Part.settling, state, none]
    simp only [none, reduceCtorEq, decide_false, Bool.not_false, Bool.true_and, Bool.and_eq_false_iff,
      decide_eq_false_iff_not, not_le] at more
    unfold huntStep Hunt.countedWith
    rw [if_pos settling, none]
    by_cases settle : p.hunt.settleCount < 5
    · rw [if_pos settle]
      simp [settle]
    · rw [if_neg settle, if_neg (by dsimp only; omega), magnitude_getD]
      simp [settle, Hunt.summedWith]
  · rw [huntStep_of_not_settling n (.inr (by rw [close]; decide)), close]
    rfl

/-- The twentieth window step ends the window (R139). -/
theorem huntStep_ends {p : Part} (n : Channel) (state : p.hunt.state = .testing) (order : p.mech.order = .none)
    (settled : 5 ≤ p.hunt.settleCount) (last : 20 ≤ p.hunt.windowCount + 1) :
    huntStep n p = windowEnded (p.hunt.summedWith n).windowSum { p with hunt := p.hunt.summedWith n } := by
  unfold huntStep
  rw [if_pos (by simp [Part.settling, state, order]), if_neg (by omega), magnitude_getD]
  exact if_pos last

theorem routeDecision_huntTest {d : Decision} {p : Part} (causes : d.causes ≠ {}) (order : p.mech.order ≠ .trip) :
    routeDecision .huntTest d p = huntDecision d p := by
  have any : d.causes.any = true := Bool.of_not_eq_false fun h => causes (Causes.any_eq_false.mp h)
  simp [routeDecision, any, order]

/-- A decision reaches nobody while no test and no restoration is under way (R140). -/
theorem huntDecision_idle {p : Part} (d : Decision) (testing : p.hunt.state ≠ .testing) (restoring : p.hunt.state ≠ .restoring) :
    huntDecision d p = p := by
  unfold huntDecision
  split
  iterate 2 contradiction
  rfl

/-- What the Hunt's part of a step in TESTING does, by its causes and by whether it is the window's last (R34, R139, R140). -/
theorem testStep_spec {p : Part} {m : Nat} (mode : p.elements.mode = .huntTest)
    (running : (p.position = .closed ∧ p.mech.order = .none) ∨
      (p.position = .travel ∧ p.mech.order = .close ∧ p.mech.placer = some .hunt))
    (state : p.hunt.state = .testing) (probe : p.hunt.probe = some m) :
    let n := p.intake.channels.n
    let stroke : Bool := p.mech.order = .close
    let last : Bool := !stroke && 5 ≤ p.hunt.settleCount && 20 ≤ p.hunt.windowCount + 1
    let phases : Bool := anyPhase p.testHighLanes || anyPhaseLane p.testLanes
    let left (t : Part) : Prop :=
      t.elements =
          { p.testRun.elements with
            episode := none
            closeKind := if stroke then .none else p.elements.closeKind
            mode := if stroke then .normal else .huntTest } ∧
        t.intake = p.testRun.intake
    let t := elementsStep p
    (p.testCauses = {} → last = false → t = { p.testRun with hunt := p.hunt.countedWith stroke n }) ∧
    (p.testCauses = {} → last = true →
      t.hunt = (p.hunt.summedWith n).tested m (windowResult (p.hunt.summedWith n) (p.hunt.summedWith n).windowSum) ∧
        HuntTripped p {} noPhases noLanes t ∧ left t ∧ t.entries = p.entries) ∧
    (p.testCauses ≠ {} → last = false → phases = false →
      t.hunt = (p.hunt.countedWith stroke n).tested m .present ∧
        HuntTripped p p.testCauses p.testHighLanes p.testLanes t ∧ left t ∧ t.entries = p.entries) ∧
    (p.testCauses ≠ {} → last = false → phases = true →
      t.hunt = (p.hunt.countedWith stroke n).abandonedBy .otherFault none true ∧
        HuntTripped p p.testCauses p.testHighLanes p.testLanes t ∧ left t ∧ t.entries = p.entriesLeft ∧
        ∀ x : Master, t.pendingFor x .huntEnd = true) := by
  intro n stroke last phases left t
  have step : t = routeDecision .huntTest ⟨p.testCauses, p.testHighLanes, p.testLanes⟩ (huntStep n p.testRun) :=
    elementsStep_huntTest mode (running.imp And.left fun h => ⟨h.1, h.2.1⟩)
  have order : p.mech.order = .none ∨ p.mech.order = .close := running.imp And.right fun h => h.2.1
  have own : p.mech.order = .none ∨ (p.mech.order = .close ∧ p.mech.placer = some .hunt) := running.imp And.right And.right
  have notTrip : p.mech.order ≠ .trip := by rcases order with h | h <;> simp [h]
  have notOpen : p.position ≠ .opened := by rcases running with h | h <;> simp [h.1]
  have counted : last = false → huntStep n p.testRun = { p.testRun with hunt := p.hunt.countedWith stroke n } :=
    fun more => huntStep_counts (p := p.testRun) n state order more
  have countedState : (p.hunt.countedWith stroke n).state = .testing := by rw [countedWith_eq]; exact state
  have countedProbe : (p.hunt.countedWith stroke n).probe = some m := by rw [countedWith_eq]; exact probe
  have leaves : ∀ {x : Part},
      x.elements =
        { p.testRun.elements with
          episode := none
          closeKind := if p.mech.order = .close then .none else p.elements.closeKind
          mode := if p.mech.order = .close then .normal else p.elements.mode } →
      x.intake = p.testRun.intake → left x := by
    intro x elements intake
    refine ⟨elements.trans ?_, intake⟩
    rw [mode]
    by_cases close : p.mech.order = .close
    · simp only [stroke, if_pos close, decide_eq_true close, if_true]
    · simp only [stroke, if_neg close, decide_eq_false close, Bool.false_eq_true, if_false]
  clear_value t
  refine ⟨fun quiet more => ?_, fun quiet ends => ?_, fun trips more noPhase => ?_, fun trips more somePhase => ?_⟩
  · rw [step, counted more, routeDecision_of_none (.inl quiet)]
  · have facts : p.mech.order ≠ .close ∧ 5 ≤ p.hunt.settleCount ∧ 20 ≤ p.hunt.windowCount + 1 := by
      simpa [last, stroke, and_assoc] using ends
    obtain ⟨notClose, settled, window⟩ := facts
    have none := order.resolve_right notClose
    rw [huntStep_ends (p := p.testRun) n state none settled window, routeDecision_of_none (.inl quiet)] at step
    obtain ⟨hunt, tripped, elements, intake, entries⟩ := testResult_leaves
      (windowResult (p.hunt.summedWith n) (p.hunt.summedWith n).windowSum) (c := emptyCall)
      (p := { p.testRun with hunt := p.hunt.summedWith n }) (m := m) probe rfl notOpen (.inl none)
    have same : t = testResult (windowResult (p.hunt.summedWith n) (p.hunt.summedWith n).windowSum) emptyCall
        { p.testRun with hunt := p.hunt.summedWith n } := step
    rw [← same] at hunt tripped elements intake entries
    exact ⟨hunt, tripped, leaves elements intake, entries⟩
  · rw [counted more, routeDecision_huntTest (by exact trips) (by exact notTrip)] at step
    obtain ⟨noHigh, noLane⟩ : anyPhase p.testHighLanes = false ∧ anyPhaseLane p.testLanes = false :=
      Bool.or_eq_false_iff.mp noPhase
    have residual : p.testLanes.n = true := by
      cases lane : p.testLanes.n with
      | true => rfl
      | false =>
        refine absurd ?_ trips
        have noSotf : anyLane p.testLanes = false := by
          unfold anyLane
          rw [lane, Bool.or_false]
          exact noLane
        rw [Part.testCauses, noHigh, noSotf]
    have decided : huntDecision ⟨p.testCauses, p.testHighLanes, p.testLanes⟩
        { p.testRun with hunt := p.hunt.countedWith stroke n } =
        testResult .present ⟨p.testCauses, none, p.testHighLanes, p.testLanes⟩
          { p.testRun with hunt := p.hunt.countedWith stroke n } := by
      simp only [huntDecision, countedState, noLane, residual, if_true]
      exact if_neg (by rw [show p.testCauses.highset = false from noHigh]; decide)
    rw [decided] at step
    obtain ⟨hunt, tripped, elements, intake, entries⟩ := testResult_leaves .present
      (c := ⟨p.testCauses, none, p.testHighLanes, p.testLanes⟩)
      (p := { p.testRun with hunt := p.hunt.countedWith stroke n }) (m := m) countedProbe rfl notOpen own
    rw [← step] at hunt tripped elements intake entries
    exact ⟨hunt, tripped, leaves elements intake, entries⟩
  · rw [counted more, routeDecision_huntTest (by exact trips) (by exact notTrip)] at step
    have decided : huntDecision ⟨p.testCauses, p.testHighLanes, p.testLanes⟩
        { p.testRun with hunt := p.hunt.countedWith stroke n } =
        abandon .otherFault none ⟨p.testCauses, none, p.testHighLanes, p.testLanes⟩
          { p.testRun with hunt := p.hunt.countedWith stroke n } := by
      simp only [huntDecision, countedState]
      exact if_pos somePhase
    rw [decided] at step
    obtain ⟨hunt, tripped, elements, intake, entries, huntEnd⟩ := abandon_leaves (reason := .otherFault)
      (c := ⟨p.testCauses, none, p.testHighLanes, p.testLanes⟩)
      (p := { p.testRun with hunt := p.hunt.countedWith stroke n }) (by simp) rfl notOpen own
    rw [← step] at hunt tripped elements intake entries huntEnd
    exact ⟨hunt, tripped, leaves elements intake, entries, huntEnd⟩

/-- Settles O57. -/
theorem testWindowEndTrips : Obligations.TestWindowEndTrips := by
  unfold Obligations.TestWindowEndTrips
  intro formed applied tripped ended noLane noPhase
  have asApplied : ∀ (m : Nat) (r : TestResult) (h : Hunt), h.tested m r = applied m r h := fun m r h => by
    cases r <;> rfl
  refine ⟨fun s m limit state order notOpen probe _ above below => ?_, fun p m mode => ?_,
    fun p d held state order placer travel => ?_, fun s started placer sound => ?_⟩
  · obtain ⟨t, run, trips, ⟨sum, bound, unseen, hunt⟩, range, rest⟩ :=
      huntWindowEnded_ends state order notOpen probe above below
    exact ⟨t, run, trips, ⟨sum, bound, unseen, hunt.trans (asApplied _ _ _)⟩, range, rest⟩
  · intro ch st phase high mask sefPicked quiet episode elements base highLanes phases causes stroke left value summed last
      counted counts t
    have samePhases : phases = (anyPhase p.testHighLanes || anyPhaseLane p.testLanes) := by
      change (p.testLanes.a || p.testLanes.b || p.testLanes.c || p.testHighLanes.a || p.testHighLanes.b || p.testHighLanes.c) = _
      unfold anyPhase anyPhaseLane
      ac_rfl
    refine ⟨fun running idle => ?_, fun running state probe => ?_⟩
    · have step : t = routeDecision .huntTest ⟨p.testCauses, p.testHighLanes, p.testLanes⟩ (huntStep ch.n p.testRun) :=
        elementsStep_huntTest mode (by simpa [stroke] using running)
      have handed : huntStep ch.n p.testRun = p.testRun := by
        refine huntStep_of_not_settling ch.n (idle.symm.imp (fun h => h.1) fun trip => ?_)
        change p.mech.order ≠ .none
        simp [trip]
      rw [step, handed]
      by_cases nothing : p.testCauses = {} ∨ p.mech.order = .trip
      · exact routeDecision_of_none nothing
      · obtain ⟨trips, notTrip⟩ := not_or.mp nothing
        obtain ⟨notTesting, notRestoring⟩ := idle.resolve_left notTrip
        rw [routeDecision_huntTest (by exact trips) (by exact notTrip)]
        exact huntDecision_idle _ notTesting notRestoring
    · obtain ⟨quietly, ends, present, other⟩ := testStep_spec (m := m) mode (by simpa [stroke] using running) state probe
      refine ⟨fun quiet more => quietly quiet more, fun quiet final => ?_, fun trips more noPhases' => ?_,
        fun trips more somePhase => ?_⟩
      · obtain ⟨hunt, trips, ⟨elements', intake⟩, entries⟩ := ends quiet final
        exact ⟨hunt.trans (asApplied _ _ _), trips, elements', intake, entries⟩
      · obtain ⟨hunt, trips, ⟨elements', intake⟩, entries⟩ := present trips more (samePhases.symm.trans noPhases')
        exact ⟨tested_counted p.hunt stroke ch.n m hunt, trips, elements', intake, entries⟩
      · obtain ⟨hunt, trips, ⟨elements', intake⟩, entries, huntEnd⟩ := other trips more (samePhases.symm.trans somePhase)
        exact ⟨abandonedBy_counted p.hunt stroke ch.n _ hunt, trips, elements', intake, entries, huntEnd⟩
  · intro t
    have decided : t = abandon .restoreTrip none (decisionCall d) p := seqDecision_restoring d held state order
    have notOpen : p.position ≠ .opened := by rw [travel]; decide
    obtain ⟨hunt, trips, elements, intake, entries, huntEnd⟩ := abandon_leaves (reason := .restoreTrip) (c := decisionCall d)
      (by simp) rfl notOpen (.inr ⟨order, placer⟩)
    rw [← decided] at hunt trips elements intake entries huntEnd
    exact ⟨hunt, trips, elements.trans (by simp [order]), intake, entries, huntEnd⟩
  · intro ended'
    refine ⟨fun order moved settled state kind => closes_test started placer order moved settled state kind,
      fun n order moved settled state notPending record => ?_⟩
    intro opened again
    obtain ⟨plans, retests⟩ := huntOpened_test (p := opened) notPending state
    refine ⟨huntOpened (s.toPart.tripEnded n), ?_, fun never => ?_, fun m againAt => ⟨fun limit => ?_, fun more => ?_⟩⟩
    · rw [opens_test started placer order moved settled record, elementsOpened_settled]
    · exact (plans never).symm ▸ plan_spec (p := opened) rfl sound nofun
    · exact ((retests m againAt).1 limit).symm ▸ enterRestoration_spec .limitReached (p := opened) rfl sound nofun
    · exact ((retests m againAt).2 more).symm ▸ deriveOrder_spec (p := { opened with hunt := { s.hunt with state := .ordering } })
        againAt.1 rfl sound nofun

end Sys2Proof.Machine
end HuntTests

/-! SUPPORT. The Store and start-up: a completed write (R194), a cold start, and the completion of start-up (R196 to R199). -/

section StoreAndStart

namespace Sys2Proof.Machine

/-! ## Beginning a write (R194) -/

/-- The Store once the oldest of what is queued begins to be written (R194). -/
def Store.begun (clock : Nat) (s : Store) : Store :=
  if s.queue = [] ∨ s.writing = true then s else { s with writing := true, writeTimer := some (clock + 40) }

theorem beginWrite_of_started {p : Part} (h : p.started = true) :
    beginWrite p = { p with store := p.store.begun p.clock } := by
  unfold beginWrite Store.begun
  by_cases idle : p.store.queue = [] ∨ p.store.writing = true
  · rw [if_pos idle, if_neg]
    rcases idle with none | busy
    · simp [none]
    · simp [busy]
  · obtain ⟨queued, free⟩ := not_or.mp idle
    rw [if_neg idle, if_pos (by simp [h, queued, free])]
    rfl

@[simp] theorem Store.begun_items (clock : Nat) (s : Store) :
    (s.begun clock).groups = s.groups ∧ (s.begun clock).sections = s.sections ∧ (s.begun clock).season = s.season ∧
    (s.begun clock).slots = s.slots ∧ (s.begun clock).queue = s.queue := by
  unfold Store.begun
  split <;> exact ⟨rfl, rfl, rfl, rfl, rfl⟩

theorem Store.begun_writing {s : Store} (idle : s.writing = false) (clock : Nat) :
    (s.begun clock).writing = true ↔ s.queue ≠ [] := by
  unfold Store.begun
  by_cases none : s.queue = []
  · rw [if_pos (.inl none), idle]
    simp [none]
  · rw [if_neg (by simp [none, idle])]
    simp [none]

/-! ## The end of a write (R194) -/

/-- The answer that waited on a write is held no longer; the link is otherwise as it was (R182). -/
theorem releaseAnswer_some (k : LinkId) (p : Part) :
    releaseAnswer (some k) p = setLink k
      { p.links.get k with answer := (p.links.get k).answer.map fun a => { a with held := false } } p := by
  unfold releaseAnswer
  cases held : (p.links.get k).answer with
  | some a => simp only [held, Option.map]
  | none =>
    simp only [held, Option.map]
    rw [← held]
    exact congrArg (fun l => ({ p with links := l } : Part)) (PerLink.set_get p.links k).symm

theorem releaseAnswer_eq (k : Option LinkId) (p : Part) : releaseAnswer k p = { p with links := (releaseAnswer k p).links } := by
  cases k with
  | none => rfl
  | some k => rw [releaseAnswer_some, setLink]

/-- The Store as a write completes, before the next begins (R194). -/
def Store.completed (w : Write) (rest : List QueuedWrite) (s : Store) : Store :=
  { written w s with queue := rest, writing := false, writeTimer := none }

theorem writeCompleted_eq {w : QueuedWrite} {rest : List QueuedWrite} {p : Part} (queue : p.store.queue = w :: rest)
    (writing : p.store.writing = true) (started : p.started = true) :
    writeCompleted p = { p with
      store := (p.store.completed w.write rest).begun p.clock
      links := (releaseAnswer w.link p).links } := by
  have links : (releaseAnswer w.link { p with store := p.store.completed w.write rest }).links =
      (releaseAnswer w.link p).links := by
    cases w.link with
    | none => rfl
    | some k => rw [releaseAnswer_some, releaseAnswer_some, setLink, setLink]
  unfold writeCompleted
  simp only [queue, writing, if_true]
  change beginWrite (releaseAnswer w.link { p with store := p.store.completed w.write rest }) = _
  rw [beginWrite_of_started (by simpa using started), releaseAnswer_eq, links]

/-- Settles O58: the write in progress is the oldest of the queue; its item alone is replaced, its link's answer alone is
released. -/
theorem storeWriteCompletes : Obligations.StoreWriteCompletes := by
  rintro ⟨w, link⟩ rest s queue writing started
  refine ⟨s.withPart (writeCompleted s.toPart), rfl, ?_⟩
  rw [writeCompleted_eq queue writing started]
  have items := Store.begun_items s.clock (s.store.completed w rest)
  obtain ⟨groups, sections, season, slots, queued⟩ := items
  refine ⟨queued, ?_, ?_, ?_, ?_, (Store.begun_writing rfl s.clock).trans (by rfl), ?_, ?_, rfl⟩
  · intro g x kind
    obtain rfl : w = _ := kind
    exact ⟨(congrArg (·.get g) groups).trans (FourGroups.get_set_self _ _ _), season, sections, slots,
      fun h other => (congrArg (·.get h) groups).trans (FourGroups.get_set_ne _ _ other)⟩
  · intro x kind
    obtain rfl : w = _ := kind
    exact ⟨sections, groups, season, slots⟩
  · intro x kind
    obtain rfl : w = _ := kind
    exact ⟨season, groups, sections, slots⟩
  · intro n x kind
    obtain rfl : w = _ := kind
    exact ⟨(congrArg (·.get n) slots).trans (PerSlot.get_set_self _ _ _), groups, season, sections,
      fun j other => (congrArg (·.get j) slots).trans (PerSlot.get_set_ne _ _ other)⟩
  · intro k waits
    have links : (releaseAnswer link s.toPart).links = s.links.set k
        { s.links.get k with answer := (s.links.get k).answer.map fun a => { a with held := false } } := by
      rw [show link = some k from waits, releaseAnswer_some, setLink]
    exact ⟨congrArg Link.answer ((congrArg (·.get k) links).trans (PerLink.get_set_self _ _ _)),
      fun j other => (congrArg (·.get j) links).trans (PerLink.get_set_ne _ _ other)⟩
  · intro free
    exact congrArg (fun k => (releaseAnswer k s.toPart).links) free

end Sys2Proof.Machine
end StoreAndStart

/-! SUPPORT. A cold start: the image after damage, the block list that the slots give (R94), and what start-up assembles
(R196 to R198). -/

section ColdStarts

namespace Sys2Proof.Machine

/-! ## The image after damage (R193) -/

/-- An item whose mark stays sound only where `b` says so. -/
def Item.soundIf {α : Type} (i : Item α) (b : Bool) : Item α := ⟨i.contents, i.valid && b⟩

/-- An item that damage elsewhere leaves alone, and damage to itself marks, is after the damage of a list sound only if it is
not in the list. -/
theorem damaged_item {α : Type} {look : Store → Item α} {j : ItemId}
    (one : ∀ (s : Store) (i : ItemId), look (damage s i) = (look s).soundIf (decide (j ≠ i))) (l : List ItemId) :
    ∀ s : Store, look (l.foldl damage s) = (look s).soundIf (decide (j ∉ l)) := by
  induction l with
  | nil => intro s; simp [Item.soundIf]
  | cons i l ih =>
    intro s
    rw [List.foldl_cons, ih, one]
    simp [Item.soundIf, List.mem_cons, not_or, Bool.and_assoc]

theorem damaged_group (l : List ItemId) (s : Store) (g : GroupId) :
    (l.foldl damage s).groups.get g = (s.groups.get g).soundIf (decide (.group g ∉ l)) := by
  refine damaged_item (look := fun s => s.groups.get g) (fun s i => ?_) l s
  cases i with
  | group h =>
    by_cases same : g = h
    · subst same; simp [damage, Item.soundIf]
    · simp [damage, Item.soundIf, same, FourGroups.get_set_ne]
  | sections => simp [damage, Item.soundIf]
  | season => simp [damage, Item.soundIf]
  | slot n => simp [damage, Item.soundIf]

theorem damaged_sections (l : List ItemId) (s : Store) :
    (l.foldl damage s).sections = s.sections.soundIf (decide (.sections ∉ l)) := by
  refine damaged_item (look := (·.sections)) (fun s i => ?_) l s
  cases i <;> simp [damage, Item.soundIf]

theorem damaged_season (l : List ItemId) (s : Store) :
    (l.foldl damage s).season = s.season.soundIf (decide (.season ∉ l)) := by
  refine damaged_item (look := (·.season)) (fun s i => ?_) l s
  cases i <;> simp [damage, Item.soundIf]

theorem damaged_slot (l : List ItemId) (s : Store) (n : SlotId) :
    (l.foldl damage s).slots.get n = (s.slots.get n).soundIf (decide (.slot n ∉ l)) := by
  refine damaged_item (look := fun s => s.slots.get n) (fun s i => ?_) l s
  cases i with
  | slot h =>
    by_cases same : n = h
    · subst same; simp [damage, Item.soundIf]
    · simp [damage, Item.soundIf, same, PerSlot.get_set_ne]
  | group g => simp [damage, Item.soundIf]
  | sections => simp [damage, Item.soundIf]
  | season => simp [damage, Item.soundIf]

/-! ## The image alone counts (R195, R196) -/

/-- The Store with no write queued or in progress. -/
def Store.still (s : Store) : Store := { s with queue := [], writing := false, writeTimer := none }

theorem damage_still (l : List ItemId) : ∀ s : Store, (l.foldl damage s).still = l.foldl damage s.still := by
  induction l with
  | nil => intro s; rfl
  | cons i l ih => intro s; rw [List.foldl_cons, List.foldl_cons, ih]; cases i <;> rfl

theorem coldStarted_of_still {r : ColdReads} {p q : Part} (h : p.store.still = q.store.still) :
    coldStarted r p = coldStarted r q := by
  have still (p : Part) : coldStarted r p = startPart r (r.damaged.foldl damage p.store.still) := by
    rw [← damage_still]
    rfl
  rw [still, still, h]

/-! ## The block list of the slots (R94) -/

section Slots

variable (items : SlotId → Item (Option SlotEntry))

/-- What a slot holds, if it is valid. -/
def slotHeld (n : SlotId) : Option SlotEntry := if (items n).valid then (items n).contents else none

/-- Whether an earlier slot holds the same as this one. -/
def slotRepeated (n : SlotId) : Bool := (allSlots.takeWhile (· ≠ n)).any fun i => slotHeld items i = slotHeld items n

/-- The invalid slot to which the HOT_LINE entry of R94 is assigned. -/
def slotAssigned : Option SlotId :=
  if allSlots.any fun i => slotHeld items i = some gravestEntry then none else allSlots.find? fun n => !(items n).valid

/-- The entries that a slot gives: the entry it holds, unless an earlier slot has given it. -/
def slotRestored (n : SlotId) : List BlockEntry :=
  match slotHeld items n with
  | some e => if slotRepeated items n then [] else [restoredEntry n e]
  | none => []

/-- The write that start-up queues for a slot (R94, R197). -/
def slotRewrites (n : SlotId) : List Write :=
  if !(items n).valid then [.slot n (if slotAssigned items = some n then some gravestEntry else none)]
  else if (slotHeld items n).isSome && slotRepeated items n then [.slot n none] else []

end Slots

theorem holdsEntry_iff {l : List BlockEntry} {e : SlotEntry} : holdsEntry l e = true ↔ ∃ b ∈ l, b.stored = e := by
  obtain ⟨kind, owner, reason⟩ := e
  simp [holdsEntry, findEntry, List.find?_isSome, BlockEntry.named, BlockEntry.stored, and_assoc]

theorem addValid_eq (slots : PerSlot (Item (Option SlotEntry))) (l : List BlockEntry) (n : SlotId) :
    addValid slots l n = l ++ ((slotHeld slots.get n).filter fun e => !holdsEntry l e).toList.map (restoredEntry n) := by
  unfold addValid slotHeld
  by_cases valid : (slots.get n).valid = true
  · rw [if_pos valid, if_pos valid]
    cases held : (slots.get n).contents with
    | none => simp
    | some e =>
      by_cases known : holdsEntry l e = true
      · simp [known, Option.filter]
      · simp [known, Option.filter]
  · rw [if_neg valid, if_neg valid]
    simp

/-- The valid slots taken up to some slot: the entries given, and which entries stand. -/
theorem addValid_fold (slots : PerSlot (Item (Option SlotEntry))) (rest : List SlotId) :
    ∀ (before : List SlotId) (l : List BlockEntry), allSlots = before ++ rest →
      (∀ e : SlotEntry, holdsEntry l e = true ↔ ∃ i ∈ before, slotHeld slots.get i = some e) →
      rest.foldl (addValid slots) l = l ++ rest.flatMap (slotRestored slots.get) ∧
      ∀ e : SlotEntry, holdsEntry (rest.foldl (addValid slots) l) e = true ↔
        ∃ i ∈ allSlots, slotHeld slots.get i = some e := by
  induction rest with
  | nil =>
    intro before l all known
    rw [all]
    simpa using known
  | cons n rest ih =>
    intro before l all known
    have earlier : allSlots.takeWhile (· ≠ n) = before := by
      have fresh : n ∉ before := by
        have distinct : (before ++ n :: rest).Nodup := all ▸ (by decide : allSlots.Nodup)
        exact fun mem => (List.disjoint_of_nodup_append distinct) mem (List.mem_cons_self ..)
      rw [all, List.takeWhile_append_of_pos (by
        intro i mem
        exact decide_eq_true fun same => fresh (same ▸ mem))]
      simp
    have repeated (e : SlotEntry) (held : slotHeld slots.get n = some e) :
        slotRepeated slots.get n = holdsEntry l e := by
      unfold slotRepeated
      rw [earlier, held, Bool.eq_iff_iff, known]
      simp
    have given : addValid slots l n = l ++ slotRestored slots.get n := by
      rw [addValid_eq]
      unfold slotRestored
      cases held : slotHeld slots.get n with
      | none => rfl
      | some e => cases found : holdsEntry l e <;> simp [repeated e held, found, Option.filter]
    have known' (e : SlotEntry) : holdsEntry (addValid slots l n) e = true ↔
        ∃ i ∈ before ++ [n], slotHeld slots.get i = some e := by
      have split : (∃ i ∈ before ++ [n], slotHeld slots.get i = some e) ↔
          holdsEntry l e = true ∨ slotHeld slots.get n = some e := by
        rw [known]
        simp [or_and_right, exists_or]
      rw [split, addValid_eq]
      cases held : slotHeld slots.get n with
      | none => simp
      | some f =>
        by_cases found : holdsEntry l f = true
        · simp only [Option.filter, found, Bool.not_true, Bool.false_eq_true, if_false, Option.toList, List.map_nil,
            List.append_nil, Option.some.injEq]
          exact ⟨.inl, fun h => h.elim id fun same => same ▸ found⟩
        · simp only [Option.filter, found, Bool.not_false, if_true, Option.toList, List.map_cons, List.map_nil,
            holdsEntry_iff, List.mem_append, List.mem_singleton, or_and_right, exists_or, exists_eq_left, Option.some.injEq]
          exact Iff.rfl
    obtain ⟨taken, stands⟩ := ih (before ++ [n]) (addValid slots l n) (by simpa using all) known'
    refine ⟨?_, stands⟩
    rw [List.foldl_cons, taken, given, List.flatMap_cons, List.append_assoc]

/-- The invalid slots taken in order: the first gives the HOT_LINE entry, unless it stands. -/
theorem addInvalid_fold (slots : PerSlot (Item (Option SlotEntry))) (rest : List SlotId) :
    ∀ l : List BlockEntry, rest.foldl (addInvalid slots) l =
      l ++ ((if holdsEntry l gravestEntry then none else rest.find? fun n => !(slots.get n).valid).map
        fun n => restoredEntry n gravestEntry).toList := by
  induction rest with
  | nil => intro l; simp
  | cons n rest ih =>
    intro l
    rw [List.foldl_cons, ih]
    by_cases stands : holdsEntry l gravestEntry = true
    · simp [addInvalid, stands]
    · by_cases valid : (slots.get n).valid = true
      · simp [addInvalid, valid, stands]
      · have joined : holdsEntry (l ++ [restoredEntry n gravestEntry]) gravestEntry = true :=
          holdsEntry_iff.mpr ⟨restoredEntry n gravestEntry, by simp, rfl⟩
        simp [addInvalid, valid, stands, joined]

theorem slotEntries_eq (slots : PerSlot (Item (Option SlotEntry))) :
    slotEntries slots = allSlots.flatMap (slotRestored slots.get) ++
      ((slotAssigned slots.get).map fun n => restoredEntry n gravestEntry).toList := by
  obtain ⟨given, stands⟩ := addValid_fold slots allSlots [] [] rfl (by simp [holdsEntry, findEntry])
  have gravest : (allSlots.any fun i => slotHeld slots.get i = some gravestEntry) =
      holdsEntry (allSlots.foldl (addValid slots) []) gravestEntry := by
    rw [Bool.eq_iff_iff, stands]
    simp
  unfold slotEntries slotAssigned
  rw [addInvalid_fold, gravest, given, List.nil_append]

/-! ## The writes of the slots (R94, R197) -/

/-- In a list where one element alone is mapped to something, that is what is found. -/
theorem findSome_only {α β : Type} {f : α → Option β} {n : α} (others : ∀ m : α, m ≠ n → f m = none) (l : List α)
    (mem : n ∈ l) : l.findSome? f = f n := by
  induction l with
  | nil => cases mem
  | cons m l ih =>
    rw [List.findSome?_cons]
    cases found : f m with
    | some b =>
      have same : m = n := by
        by_contra other
        rw [others m other] at found
        cases found
      exact found.symm.trans (congrArg f same)
    | none =>
      rcases List.mem_cons.mp mem with rfl | later
      · rw [found]
        refine List.findSome?_eq_none_iff.mpr fun m _ => ?_
        by_cases same : m = n
        · rw [same, found]
        · exact others m same
      · exact ih later

theorem mem_allSlots (n : SlotId) : n ∈ allSlots := by cases n <;> decide

/-- The entry a slot has given, by the slot: the one it held, or the HOT_LINE entry assigned to it. -/
theorem slotHolds_eq (slots : PerSlot (Item (Option SlotEntry))) (n : SlotId) :
    slotHolds (slotEntries slots) n =
      ((slotRestored slots.get n).head?.map BlockEntry.stored).or
        (if slotAssigned slots.get = some n then some gravestEntry else none) := by
  have own (m : SlotId) : (slotRestored slots.get m).find? (fun e => e.slot = some n) =
      if m = n then (slotRestored slots.get m).head? else none := by
    unfold slotRestored
    cases slotHeld slots.get m with
    | none => simp
    | some e => cases slotRepeated slots.get m <;> by_cases same : m = n <;> simp [restoredEntry, same]
  have restored : (allSlots.flatMap (slotRestored slots.get)).find? (fun e => e.slot = some n) =
      (slotRestored slots.get n).head? := by
    rw [List.find?_flatMap, findSome_only (n := n) (fun m other => by rw [own, if_neg other]) allSlots (mem_allSlots n), own,
      if_pos rfl]
  unfold slotHolds
  rw [slotEntries_eq, List.find?_append, restored]
  cases (slotRestored slots.get n).head? with
  | some e => rfl
  | none =>
    cases slotAssigned slots.get with
    | none => rfl
    | some m => by_cases same : m = n <;> simp [restoredEntry, same, BlockEntry.stored, gravestEntry]

theorem slotAssigned_invalid {items : SlotId → Item (Option SlotEntry)} {n : SlotId} (h : slotAssigned items = some n) :
    (items n).valid = false := by
  unfold slotAssigned at h
  split at h
  · cases h
  · simpa using List.find?_some h

theorem slotRewrite_eq (s : Store) (n : SlotId) : slotRewrite s n = slotRewrites s.slots.get n := by
  unfold slotRewrite slotRewrites
  rw [slotHolds_eq]
  by_cases valid : (s.slots.get n).valid = true
  · have unassigned : slotAssigned s.slots.get ≠ some n := fun h => by
      rw [slotAssigned_invalid h] at valid
      cases valid
    have held : slotHeld s.slots.get n = (s.slots.get n).contents := if_pos valid
    unfold slotRestored
    cases contents : (s.slots.get n).contents with
    | none => simp [valid, unassigned, held, contents]
    | some e =>
      cases repeated : slotRepeated s.slots.get n <;>
        simp [valid, unassigned, held, contents, restoredEntry, BlockEntry.stored]
  · have held : slotHeld s.slots.get n = none := if_neg valid
    simp [slotRestored, valid, held]

/-! ## Roles, groups and the writes of start-up (R175, R197) -/

/-- The role that a strap names, given the straps before it (R175). -/
def strapRole (strap : Option Master) (given : List (Option Master)) : Role :=
  match strap with
  | some m => if some m ∈ given then .disabled else .held m
  | none => .disabled

theorem roleOf_held {strap : Option Master} {given : List Role} {m : Master} :
    roleOf strap given = .held m ↔ strap = some m ∧ .held m ∉ given := by
  unfold roleOf
  cases strap with
  | none => simp
  | some l => by_cases taken : Role.held l ∈ given <;> simp [taken] <;> grind

theorem roleOf_strapRole {strap : Option Master} {given : List Role} {straps : List (Option Master)}
    (h : ∀ m : Master, .held m ∈ given ↔ some m ∈ straps) : roleOf strap given = strapRole strap straps := by
  unfold roleOf strapRole
  cases strap with
  | none => rfl
  | some m => simp only [h]

theorem rolesOf_eq (r : ColdReads) :
    rolesOf r = ⟨strapRole r.strap1 [], strapRole r.strap2 [r.strap1], strapRole r.strap3 [r.strap1, r.strap2]⟩ := by
  have first : roleOf r.strap1 [] = strapRole r.strap1 [] := roleOf_strapRole (by simp)
  have one (m : Master) : roleOf r.strap1 [] = .held m ↔ r.strap1 = some m := by simp [roleOf_held]
  have two (m : Master) : .held m ∈ [roleOf r.strap1 []] ↔ some m ∈ [r.strap1] := by
    simpa [eq_comm] using one m
  have three (m : Master) : .held m ∈ [roleOf r.strap1 [], roleOf r.strap2 [roleOf r.strap1 []]] ↔
      some m ∈ [r.strap1, r.strap2] := by
    have second := roleOf_held (strap := r.strap2) (given := [roleOf r.strap1 []]) (m := m)
    have := one m
    simp only [List.mem_cons, List.not_mem_nil, or_false] at second ⊢
    grind
  change (⟨_, roleOf r.strap2 [roleOf r.strap1 []], roleOf r.strap3 [roleOf r.strap1 [], roleOf r.strap2 [roleOf r.strap1 []]]⟩ :
    PerLink Role) = _
  rw [roleOf_strapRole three, roleOf_strapRole two, first]

theorem startPosture_group (s : Store) (hotLines : Nat) (g : GroupId) :
    (startPosture s hotLines).groups.get g = restoredGroup (s.groups.get g) := by cases g <;> rfl

/-- What a damaged or EMPTY item restores to, and what a sound one that holds something does (R197). -/
theorem restored_of_some {α : Type} {c : Option α} {v : Bool} {x : α} (valid : v = true) (contents : c = some x) :
    Item.restored ⟨c, v⟩ none = some x := by rw [Item.restored, if_pos valid, contents]

theorem restored_of_none {α : Type} {c : Option α} {v : Bool} (h : v = false ∨ c = none) :
    Item.restored ⟨c, v⟩ none = none := by
  unfold Item.restored
  rcases h with rfl | rfl
  · rfl
  · rw [ite_self]

theorem restoredGroup_of_some {c : Option Settings} {v : Bool} {x : Settings} (valid : v = true) (contents : c = some x) :
    restoredGroup ⟨c, v⟩ = ⟨.ready, some x, some x⟩ := by rw [restoredGroup, restored_of_some valid contents]

theorem restoredGroup_of_none {c : Option Settings} {v : Bool} (h : v = false ∨ c = none) :
    restoredGroup ⟨c, v⟩ = ⟨.empty, none, none⟩ := by rw [restoredGroup, restored_of_none h]

theorem restoredTable_of_some {c : Option TableImage} {v : Bool} {x : TableImage} (valid : v = true)
    (contents : c = some x) : restoredTable ⟨c, v⟩ =
      ⟨.ready, some x.n, some x.timeout, x.switches.map fun e => ⟨e.ident, e.operable, .unknown⟩, some x⟩ := by
  rw [restoredTable, restored_of_some valid contents]

theorem restoredTable_of_none {c : Option TableImage} {v : Bool} (h : v = false ∨ c = none) :
    restoredTable ⟨c, v⟩ = ⟨.empty, none, none, List.replicate 15 ⟨none, false, .unknown⟩, none⟩ := by
  rw [restoredTable, restored_of_none h]
  rfl

theorem startWrites_eq (s : Store) :
    startWrites s =
      ([GroupId.g0, .g1, .g2, .g3].flatMap fun g => if (s.groups.get g).valid then [] else [Write.group g none])
        ++ (if s.sections.valid then [] else [Write.sections none]) ++ (if s.season.valid then [] else [Write.season .fireSeason])
        ++ allSlots.flatMap (slotRewrites s.slots.get) := by
  have groups : ([GroupId.g0, .g1, .g2, .g3].flatMap fun g => if (s.groups.get g).valid then [] else [Write.group g none]) =
      groupRewrite s .g0 ++ groupRewrite s .g1 ++ groupRewrite s .g2 ++ groupRewrite s .g3 := by
    simp [groupRewrite, List.append_assoc]
  rw [groups, ← funext (slotRewrite_eq s)]
  rfl

theorem startPart_hotLine (r : ColdReads) (s : Store) :
    (startPart r s).posture.hotLinePresent = (startPart r s).hasBlock .hotLine := by
  change decide (0 < hotLineCount (slotEntries s.slots)) = (slotEntries s.slots ++ [startMeasure]).any (·.kind = .hotLine)
  rw [Bool.eq_iff_iff, decide_eq_true_iff, Nat.pos_iff_ne_zero, Ne, hotLineCount_eq_zero]
  simp [startMeasure]

theorem startPart_links (r : ColdReads) (s : Store) : (startPart r s).links = startLinks (rolesOf r) := rfl

theorem startPart_seq_closed (r : ColdReads) (s : Store) :
    (startPart r s).seq.state = .closed ↔ (startPart r s).position = .closed := by
  change (startSeq Part.reset.seq (startPart r s).position).state = .closed ↔ _
  unfold startSeq
  split <;> simp [*]

theorem startPart_seq_lockout {r : ColdReads} {s : Store} (h : (startPart r s).position ≠ .closed) :
    (startPart r s).seq.state = .lockout ∧ (startPart r s).seq.lockoutReason = some .start := by
  change (startSeq Part.reset.seq (startPart r s).position).state = .lockout ∧
    (startSeq Part.reset.seq (startPart r s).position).lockoutReason = some .start
  rw [startSeq, if_neg h]
  exact ⟨rfl, rfl⟩

/-! ## Start-up completed (R196, R199) -/

theorem weighLines_get (p : Part) (m : Master) :
    (weighLines p).notices.get m = { p.notices.get m with line := (p.notices.get m).lineLevel (p.showsLine m) } := by
  cases m <;> rfl

theorem startedUp_held {p : Part} {holds : Nat} (before : p.started = false) (input : p.coldInput = holds + 1) :
    startedUp p = { p with coldInput := holds } := by
  simp [startedUp, before, input]

theorem startedUp_completes {p : Part} (before : p.started = false) (input : p.coldInput = 0) :
    startedUp p = weighLines (startTimers { p with started := true, clock := 0, store := p.store.begun 0 }) := by
  simp [startedUp, before, input, beginWrite_of_started]

/-- Settles O59. -/
theorem startsAfresh : Obligations.StartsAfresh := by
  refine ⟨fun reads s u groups sections season slots pending => ?_, fun reads s => ?_, fun reads s => ?_,
    fun holds s before input => ?_, fun s before input => ?_⟩
  · have still : s.store.still = u.store.still := by
      simp only [Store.still, groups, sections, season, slots]
    change Host.Outcome.next (⟨coldStarted reads s.toPart, s.pending⟩ : State) = .next ⟨coldStarted reads u.toPart, u.pending⟩
    rw [coldStarted_of_still still, pending]
  · refine ⟨s.withPart (coldStarted reads s.toPart), rfl, rfl, rfl, rfl, rfl, rfl, rfl, rfl, rfl,
      startPart_seq_closed reads _, startPart_seq_lockout, rfl, rfl, (MeasureSafe.coldStarted reads s.toPart).block.mpr rfl,
      fun m => by cases m <;> exact ⟨rfl, rfl⟩, rfl, rfl, ?_, rfl, rfl, rfl, ?_, fun g => ?_, rfl⟩
    · exact selectionStands_kept.coldStarted (p := s.toPart) reads
    · have season : (coldStarted reads s.toPart).store.season = _ := damaged_season reads.damaged s.store
      exact (congrArg Item.contents season :)
    · have group : (coldStarted reads s.toPart).store.groups.get g = _ := damaged_group reads.damaged s.store g
      have mark : ((coldStarted reads s.toPart).store.groups.get g).valid = true ↔
          (s.store.groups.get g).valid = true ∧ ItemId.group g ∉ reads.damaged := by
        rw [group]
        simp [Item.soundIf]
      exact ⟨(congrArg Item.contents group :), mark⟩
  · intro sound groupSound tableSound seasonSound slotSound order holds repeated gravest assigned entry restored slotWrite link
      named
    obtain ⟨d, damaged⟩ : ∃ d, d = reads.damaged.foldl damage s.store := ⟨_, rfl⟩
    have groups (g : GroupId) : d.groups.get g = ⟨(s.store.groups.get g).contents, groupSound g⟩ :=
      damaged ▸ damaged_group reads.damaged s.store g
    have sections : d.sections = ⟨s.store.sections.contents, tableSound⟩ := damaged ▸ damaged_sections reads.damaged s.store
    have season : d.season = ⟨s.store.season.contents, seasonSound⟩ := damaged ▸ damaged_season reads.damaged s.store
    have slots : d.slots.get = fun n => ⟨(s.store.slots.get n).contents, slotSound n⟩ :=
      funext fun n => damaged ▸ damaged_slot reads.damaged s.store n
    refine ⟨s.withPart (startPart reads d), congrArg (fun d => Host.Outcome.next (s.withPart (startPart reads d))) damaged.symm,
      groups, sections, season, fun n => congrFun slots n, fun g x valid contents => ?_, fun g empty => ?_,
      fun x valid contents => ?_, fun empty => ?_, ?_, rfl, rfl, rfl, rfl, startPart_hotLine reads d, ?_, ?_, ?_, rfl,
      rfl, rfl, rfl, rfl, rfl, rfl⟩
    · rw [show (s.withPart (startPart reads d)).posture.groups.get g = restoredGroup (d.groups.get g) from
        startPosture_group d _ g, groups, restoredGroup_of_some valid contents]
    · rw [show (s.withPart (startPart reads d)).posture.groups.get g = restoredGroup (d.groups.get g) from
        startPosture_group d _ g, groups, restoredGroup_of_none empty]
    · rw [show (s.withPart (startPart reads d)).table = restoredTable d.sections from rfl, sections,
        restoredTable_of_some valid contents]
    · rw [show (s.withPart (startPart reads d)).table = restoredTable d.sections from rfl, sections,
        restoredTable_of_none empty]
    · rw [show (s.withPart (startPart reads d)).posture.season = d.season.restored .fireSeason from rfl, season]
      rfl
    · rw [show (s.withPart (startPart reads d)).entries = slotEntries d.slots ++ [startMeasure] from rfl, slotEntries_eq, slots]
      rfl
    · rw [show (s.withPart (startPart reads d)).store.queue = (startWrites d).map fun w => ⟨w, none⟩ from rfl, startWrites_eq,
        slots, sections, season]
      simp only [groups]
      rfl
    · rw [show (s.withPart (startPart reads d)).links = startLinks (rolesOf reads) from rfl, rolesOf_eq]
      rfl
  · change Host.Outcome.next (s.withPart (startedUp s.toPart)) = _
    rw [startedUp_held before input]
  · refine ⟨s.withPart (startedUp s.toPart), rfl, ?_⟩
    rw [startedUp_completes before input]
    refine ⟨rfl, rfl, input, rfl, fun k => by cases k <;> rfl, fun m => ?_, rfl, rfl, rfl, rfl, rfl, rfl, rfl, rfl,
      (Store.begun_items 0 s.store).2.2.2.2, rfl⟩
    exact weighLines_get _ m

end Sys2Proof.Machine
end ColdStarts

/-! SUPPORT. The nine reads: the numbers of names as places in their tables (R186), and the layouts of the answers
(R188 to R191). -/

section Reads

namespace Sys2Proof.Machine

/-! ## A name's number is its place in the table of its names (R186) -/

theorem Master.code_eq (m : Master) : [Master.bay, .control, .crew].idxOf m = Master.code m := by cases m <;> rfl

theorem Owner.code_eq (o : Owner) : [Owner.master .bay, .master .control, .master .crew, .part].idxOf o = Owner.code o := by
  cases o with
  | master m => cases m <;> rfl
  | part => rfl

theorem BlockKind.code_eq (x : BlockKind) :
    [BlockKind.hotLine, .operator, .hunt, .measure, .mechanism].idxOf x = x.code := by cases x <;> rfl

theorem GroupId.code_eq (g : GroupId) : [GroupId.g0, .g1, .g2, .g3].idxOf g = GroupId.code g := by cases g <;> rfl

theorem Active.code_eq (a : Active) :
    [Active.group .g0, .group .g1, .group .g2, .group .g3, .fallback].idxOf a = a.code := by
  cases a with
  | group g => cases g <;> rfl
  | fallback => rfl

theorem EditState.code_eq (x : EditState) : [EditState.empty, .editing, .ready].idxOf x = x.code := by cases x <;> rfl

theorem Season.code_eq (x : Season) : [Season.offSeason, .fireSeason].idxOf x = x.code := by cases x <;> rfl

theorem Level.code_eq (x : Level) : [Level.none, .elevated, .ban].idxOf x = x.code := by cases x <;> rfl

theorem Position.code_eq (x : Position) : [Position.opened, .closed, .travel, .discrepant].idxOf x = x.code := by
  cases x <;> rfl

theorem SeqState.code_eq (x : SeqState) :
    [SeqState.closed, .tripping, .deadTime, .closeWait, .closing, .reclaim, .lockout, .huntHeld, .failed].idxOf x = x.code := by
  cases x <;> rfl

theorem ClosePurpose.code_eq (x : ClosePurpose) : [ClosePurpose.none, .automatic, .manual].idxOf x = x.code := by
  cases x <;> rfl

theorem Origin.code_eq (x : Origin) : [Origin.elements, .manual, .measureLoss, .hunt].idxOf x = x.code := by cases x <;> rfl

theorem Why.code_eq (w : Why) :
    1 + [Why.orderInProgress, .positionUnsettled, .notLockout, .huntRunning, .hotLine, .mechanismBlocked, .measureLost,
      .energyLow, .notOpen, .tableNotReady, .switchNotClosed, .fireBan, .controlSilent, .notRunning].idxOf w = w.code := by
  cases w <;> rfl

theorem LockoutReason.code_eq (x : LockoutReason) :
    [LockoutReason.manualTrip, .measureLoss, .closeOntoFault, .tripCause, .shotsExhausted, .blocked, .closeWaitExpired,
      .closeRefused, .settings, .fireBan, .externalOpen, .mechanismReset, .huntEnd, .start].idxOf x = x.code := by
  cases x <;> rfl

theorem HuntReason.code_eq (x : HuntReason) :
    [HuntReason.sectionFound, .limitReached, .noCandidate, .aborted, .manual, .hotLine, .fireBan, .measureLost, .mechanism,
      .external, .switchFailed, .switchDisturbed, .orderTimeout, .positionNotOpen, .switchNotOperable, .closeRefused,
      .closeWaitExpired, .otherFault, .restoreTrip].idxOf x = x.code := by
  cases x <;> rfl

theorem StartedBy.code_eq (x : StartedBy) : [StartedBy.bay, .control, .automatic].idxOf x = x.code := by cases x <;> rfl

theorem HuntOutcome.code_eq (x : HuntOutcome) :
    [HuntOutcome.concludedSection, .concludedRange, .abandoned].idxOf x = x.code := by cases x <;> rfl

theorem HuntState.code_eq (x : HuntState) :
    [HuntState.idle, .ordering, .testing, .testTrip, .restoring, .concluded, .abandoned].idxOf x = x.code := by
  cases x <;> rfl

theorem SwitchAction.code_eq (x : SwitchAction) : [SwitchAction.openSwitch, .closeSwitch].idxOf x = x.code := by
  cases x <;> rfl

theorem CloseDue.code_eq (x : CloseDue) : [CloseDue.none, .test, .restore].idxOf x = x.code := by cases x <;> rfl

theorem Believed.code_eq (x : Believed) : [Believed.closed, .opened, .unknown].idxOf x = x.code := by cases x <;> rfl

theorem OpeningOutcome.code_eq (x : OpeningOutcome) : [OpeningOutcome.pending, .opened, .tripFail].idxOf x = x.code := by
  cases x <;> rfl

theorem StepKind.code_eq (x : StepKind) : [StepKind.frame, .missing].idxOf x = x.code := by cases x <;> rfl

theorem ChannelClass.code_eq (x : ChannelClass) : [ChannelClass.absent, .clipped, .zero, .normal].idxOf x = x.code := by
  cases x <;> rfl

theorem MeasureState.code_eq (x : MeasureState) : [MeasureState.good, .lost].idxOf x = x.code := by cases x <;> rfl

/-! ## Flags and seconds -/

/-- The weight of a member of a set (R186). -/
theorem weight_eq (b : Bool) (n : Nat) : (if b = true then n else 0) = n * flag b := by cases b <;> simp [flag]

/-- Milliseconds as whole seconds are the second below or above (log entry 16). -/
theorem secondsOf_bounds (ms : Nat) : ms / 1000 ≤ secondsOf ms ∧ secondsOf ms ≤ (ms + 999) / 1000 := by
  unfold secondsOf
  by_cases whole : ms % 1000 = 0
  · rw [if_pos whole]
    omega
  · rw [if_neg whole]
    split <;> omega

/-- The seconds left on a timer, as a two-byte value carries them. -/
def Part.secondsLeft (p : Part) (t : Option Nat) : Nat := ((p.msLeft t).map secondsOf).getD 65535

theorem Part.secondsLeft_some (p : Part) (e : Nat) :
    (e - p.clock) / 1000 ≤ p.secondsLeft (some e) ∧ p.secondsLeft (some e) ≤ (e - p.clock + 999) / 1000 :=
  secondsOf_bounds (e - p.clock)

/-! ## The layouts, as chains of fields -/

theorem bytes2OrNone_none : bytes2OrNone none = [255, 255] := by decide

theorem bytes4OrNone_none : bytes4OrNone none = [255, 255, 255, 255] := by decide

/-- The last-trip bytes where no trip has been. -/
theorem noTrip : [(255 : Byte), 255] ++ bytes2OrNone none = [255, 255, 255, 255] := by decide

/-- The timer bytes where no timer runs. -/
theorem noTimer : [0, 255, 255, 255, 255] = byte 0 :: bytes4OrNone none := by decide

/-- The timer bytes of STATUS, by the Sequencer's state (R77, R188). -/
def Part.timerBytes (p : Part) : List Byte :=
  match p.seq.state with
  | .deadTime => [byte 1] ++ bytes4OrNone (p.msLeft p.seq.deadTimer)
  | .closeWait => [byte 2] ++ bytes4OrNone (p.msLeft p.seq.closeWaitTimer)
  | .reclaim => [byte 3] ++ bytes4OrNone (p.msLeft p.seq.reclaimTimer)
  | _ => [0, 255, 255, 255, 255]

theorem Part.timerBytes_eq (p : Part) : p.timerBytes = byte p.runningTimer.1 :: bytes4OrNone p.runningTimer.2 := by
  unfold Part.timerBytes Part.runningTimer
  cases p.seq.state with
  | deadTime | closeWait | reclaim => rfl
  | _ => exact noTimer

theorem Link.healthByte_eq (l : Link) :
    (if l.role = .disabled then [byte 255] else [byte (l.health + 128 * flag l.faulty)]) = [l.healthByte] := by
  unfold Link.healthByte
  cases l.role <;> rfl

theorem askStatus_eq (p : Part) :
    askStatus p = Reply.done (
      [byte p.seq.state.code] ++ [byte p.position.code] ++ [byte p.statusFlags] ++ [byte p.seq.shotsUsed] ++
      [byteOrNone p.seq.pendingShot] ++ [byte p.seq.purpose.code] ++ lastTripBytes p.seq.lastTrip ++
      [byteOrNone (p.seq.lockoutReason.map LockoutReason.code)] ++ p.timerBytes ++ [byte p.posture.active.code] ++
      [byte (GroupId.code p.posture.wanted)] ++ [byte p.posture.level.code] ++ [byte p.posture.season.code] ++
      [byte p.posture.declared.code] ++ bytes4OrNone (p.posture.declaredExpiry.map fun e => e - p.uptime) ++
      [byte p.posture.localRaise.code] ++ bytes2 (p.secondsLeft p.posture.silenceTimer) ++ [byte p.entries.length] ++
      [byte p.hunt.state.code] ++ [byte p.intake.loss] ++ [byte (laneCode p.elements.mask + 16 * flag p.elements.sefPicked)] ++
      [byte p.intake.quality] ++ [p.links.link1.healthByte] ++ [p.links.link2.healthByte] ++ [p.links.link3.healthByte] ++
      bytes4 p.uptime) := by
  simp only [askStatus, Part.statusSequence, Part.statusPosture, Part.statusRest, Part.timerBytes_eq, List.append_assoc,
    List.cons_append, List.nil_append]
  rfl

theorem askReadMeasurements_eq (p : Part) :
    askReadMeasurements p = Reply.done (
      [byteOrNone (p.intake.lastKind.map StepKind.code)] ++ bytes2OrNone (p.intake.reference.map BitVec.toNat) ++
      p.intake.channels.a.bytes ++ p.intake.channels.b.bytes ++ p.intake.channels.c.bytes ++ p.intake.channels.n.bytes ++
      [byte (flag (!p.intake.sourceLive))] ++ [byte p.intake.liveHold] ++ [byte p.intake.quality] ++ [byte p.intake.loss] ++
      [byte p.intake.state.code]) := by
  simp only [askReadMeasurements, List.append_assoc, List.cons_append, List.nil_append]

theorem Records.head_eq (r : Records) : r.head = [byte r.ring.length] ++ bytes2 r.next := rfl

theorem FaultRecord.bytes_eq (r : FaultRecord) :
    r.bytes = bytes2 r.number ++ bytes4 r.uptime ++ [byte r.origin.code] ++ bytes2 r.causes.code ++
      [byteOrNone (r.requester.map Master.code)] ++ [byte (phaseCode r.highsetLanes)] ++ [byte (laneCode r.sotfLanes)] ++
      [byte r.shot] ++ [byte r.active.code] ++ [byte r.level.code] ++ peakBytes r.peaks.a ++ peakBytes r.peaks.b ++
      peakBytes r.peaks.c ++ peakBytes r.peaks.n ++ [byte (laneCode (Quad.map peakClipped r.peaks))] ++
      bytes2 (r.steps.getD 0) ++ [byte r.outcome.code] := by
  simp only [FaultRecord.bytes, List.append_assoc, List.cons_append, List.nil_append]

theorem peakClipped_eq (k : Option Peak) : peakClipped k = k.any fun y => y.clipped := by cases k <;> rfl

theorem askReadRecord_beyond {index : Byte} (h : 16 ≤ index.toNat) (p : Part) :
    askReadRecord index p = ⟨.outOfRange, p.records.head, false⟩ := if_pos h

theorem askReadRecord_none {index : Byte} {p : Part} (h : index.toNat < 16) (none : p.records.ring[index.toNat]? = none) :
    askReadRecord index p = ⟨.notFound, p.records.head, false⟩ := by
  rw [askReadRecord, if_neg (Nat.not_le.mpr h), none]

theorem askReadRecord_some {index : Byte} {p : Part} {r : FaultRecord} (h : index.toNat < 16)
    (some : p.records.ring[index.toNat]? = some r) : askReadRecord index p = Reply.done (p.records.head ++ r.bytes) := by
  rw [askReadRecord, if_neg (Nat.not_le.mpr h), some]

/-- What READ HUNT and READ HUNT ORDER show of an order, the seconds as given (R190). -/
theorem orderBytes_some (p : Part) (o : SwitchOrder) :
    p.orderBytes (some o) = [byte o.number.toNat] ++ [byte o.ident] ++ [byte o.position] ++ [byte o.action.code] ++
      bytes2 (p.secondsLeft p.hunt.orderTimer) := by
  have number : byte o.number.toNat = o.number := BitVec.eq_of_toNat_eq (by simp [byte])
  rw [number]
  rfl

theorem resultBytes_none : resultBytes none = [255, 255, 255, 255, 255, 255, 255, 255, 255, 255] := rfl

theorem resultBytes_some (r : HuntResult) :
    resultBytes (some r) = [byte r.outcome.code] ++ [byte r.reason.code] ++ [byteOrNone (r.detail.map HuntDetail.code)] ++
      [byte r.startedBy.code] ++ [byte r.lo] ++ [byte r.hi] ++ [byte r.testsUsed] ++ [byte r.testLimit] ++
      bytes2 r.unusable.toNat := rfl

theorem askReadHunt_eq (p : Part) :
    askReadHunt p = Reply.done (
      [byte p.hunt.state.code] ++ [byte (flag p.hunt.handBackPending)] ++ [byteOrNone (p.hunt.live (some p.hunt.lo))] ++
      [byteOrNone (p.hunt.live (some p.hunt.hi))] ++ [byteOrNone (p.hunt.live p.hunt.probe)] ++
      [byteOrNone (p.hunt.live (some (flag p.hunt.doubtfulSeen)))] ++ [byteOrNone (p.hunt.live (some p.hunt.testsUsed))] ++
      [byteOrNone (p.hunt.live p.hunt.testLimit)] ++ bytes2OrNone (p.hunt.live p.hunt.testPickup) ++
      [byte p.hunt.ordersIssued] ++ p.orderBytes p.hunt.outstanding ++ [byte p.hunt.closeDue.code] ++
      [byteOrNone (p.hunt.live (some p.hunt.settleCount))] ++ [byteOrNone (p.hunt.live (some p.hunt.windowCount))] ++
      resultBytes p.hunt.result) := by
  simp only [askReadHunt, List.append_assoc, List.cons_append, List.nil_append]

theorem HuntState.running_iff (x : HuntState) :
    x.running = true ↔ x ∈ [HuntState.ordering, .testing, .testTrip, .restoring] := by cases x <;> decide

/-! ## Settings read (R106, R107, R191) -/

theorem Group.shown_field (x : Group) (n : Nat) :
    x.shown.field n =
      if x.state = .empty then none else (if x.state = .editing then x.working else x.image).bind fun w => w.field n := by
  have absent : absentRecord.field n = none := by
    unfold Settings.field absentRecord
    split <;> rfl
  have getD (w : Option Settings) : (w.getD absentRecord).field n = w.bind fun w => w.field n := by
    cases w with
    | none => exact absent
    | some w => rfl
  unfold Group.shown
  cases x.state with
  | empty => exact absent
  | editing => exact getD x.working
  | ready => exact getD x.image

theorem fallback_field {n : Nat} (low : 1 ≤ n) (high : n ≤ 21) :
    fallback.field n = ([some 4000, some 4, some 10, some 0, some 0, some 4000, some 4, some 10, some 400, some 2000, some 0,
      none, none, none, some 30, some 100, some 600, some 10, some 1000, some 0, some 1] : List (Option Nat)).getD (n - 1)
        none := by
  interval_cases n <;> rfl

theorem readField_within (x : Settings) {n : Nat} (h : 1 ≤ n ∧ n ≤ 21) :
    readField x n = Reply.done (bytes4OrNone (x.field n)) := if_pos (by simpa [within] using h)

theorem readField_beyond (x : Settings) {n : Nat} (h : ¬(1 ≤ n ∧ n ≤ 21)) : readField x n = Reply.bare .outOfRange :=
  if_neg (by simpa [within] using h)

theorem targetOf_group {n : Nat} {g : GroupId} (h : n = GroupId.code g) : targetOf n = some (.group g) := by
  subst h
  cases g <;> rfl

theorem askReadSetting_group {target field : Byte} {g : GroupId} (h : target.toNat = GroupId.code g) (p : Part) :
    askReadSetting target field p = readField (p.posture.groups.get g).shown field.toNat := by
  rw [askReadSetting, targetOf_group h]

theorem askReadSetting_fallback (field : Byte) (p : Part) : askReadSetting 4 field p = readField fallback field.toNat := rfl

theorem askReadSetting_posture (field : Byte) (p : Part) : askReadSetting 5 field p =
    if field.toNat = 1 then Reply.done (bytes4 p.posture.silenceMinutes) else Reply.bare .outOfRange := rfl

theorem askReadSetting_above {target : Byte} (h : 5 < target.toNat) (field : Byte) (p : Part) :
    askReadSetting target field p = Reply.bare .outOfRange := by
  rw [askReadSetting, targetOf_above h]

/-- A target byte up to 4 reads a record, of a group or FALLBACK (R106). -/
theorem askReadSetting_record {target : Byte} (h : target.toNat < 5) (field : Byte) (p : Part) :
    ∃ x : Settings, askReadSetting target field p = readField x field.toNat := by
  unfold askReadSetting
  interval_cases target.toNat <;> exact ⟨_, rfl⟩

/-! ## The lengths of the answers (R188 to R191) -/

@[simp] theorem length_bytes2 (v : Nat) : (bytes2 v).length = 2 := rfl

@[simp] theorem length_bytes4 (v : Nat) : (bytes4 v).length = 4 := rfl

@[simp] theorem length_bytes2OrNone (v : Option Nat) : (bytes2OrNone v).length = 2 := rfl

@[simp] theorem length_bytes4OrNone (v : Option Nat) : (bytes4OrNone v).length = 4 := rfl

@[simp] theorem length_lastTripBytes (x : Option LastTrip) : (lastTripBytes x).length = 4 := by cases x <;> rfl

@[simp] theorem length_timerBytes (p : Part) : p.timerBytes.length = 5 := by rw [Part.timerBytes_eq]; rfl

@[simp] theorem length_channelBytes (c : Channel) : c.bytes.length = 7 := rfl

@[simp] theorem length_peakBytes (k : Option Peak) : (peakBytes k).length = 2 := rfl

@[simp] theorem length_orderBytes (p : Part) (o : Option SwitchOrder) : (p.orderBytes o).length = 6 := by cases o <;> rfl

@[simp] theorem length_resultBytes (r : Option HuntResult) : (resultBytes r).length = 10 := by cases r <;> rfl

theorem length_askStatus (p : Part) : (askStatus p).body.length = 40 := by simp [askStatus_eq, Reply.done]

theorem length_askReadMeasurements (p : Part) : (askReadMeasurements p).body.length = 36 := by
  simp [askReadMeasurements_eq, Reply.done]

theorem length_askReadBlocks (p : Part) : (askReadBlocks p).body.length = 3 + 14 * p.entries.length := by
  have entry (e : BlockEntry) : (p.entryBytes e).length = 14 := rfl
  simp [askReadBlocks, Reply.done, List.length_flatMap, entry]
  omega

theorem length_askReadHunt (p : Part) : (askReadHunt p).body.length = 30 := by simp [askReadHunt_eq, Reply.done]

theorem length_askReadRecord {index : Byte} {p : Part} (h : (askReadRecord index p).code = .done) :
    (askReadRecord index p).body.length = 30 := by
  by_cases beyond : 16 ≤ index.toNat
  · rw [askReadRecord_beyond beyond] at h
    cases h
  · cases found : p.records.ring[index.toNat]? with
    | none =>
      rw [askReadRecord_none (Nat.not_le.mp beyond) found] at h
      cases h
    | some r => simp [askReadRecord_some (Nat.not_le.mp beyond) found, Reply.done, Records.head_eq, FaultRecord.bytes_eq]

theorem length_readField {x : Settings} {n : Nat} (h : (readField x n).code = .done) : (readField x n).body.length = 4 := by
  by_cases inside : 1 ≤ n ∧ n ≤ 21
  · rw [readField_within x inside]
    rfl
  · rw [readField_beyond x inside] at h
    cases h

theorem length_askReadSetting {target field : Byte} {p : Part} (h : (askReadSetting target field p).code = .done) :
    (askReadSetting target field p).body.length = 4 := by
  rcases lt_trichotomy target.toNat 5 with record | posture | above
  · obtain ⟨x, read⟩ := askReadSetting_record record field p
    rw [read] at h ⊢
    exact length_readField h
  · obtain rfl : target = 5 := BitVec.eq_of_toNat_eq posture
    rw [askReadSetting_posture] at h ⊢
    by_cases silence : field.toNat = 1
    · rw [if_pos silence]
      rfl
    · rw [if_neg silence] at h
      cases h
  · rw [askReadSetting_above above] at h
    cases h

/-- Settles O60. -/
theorem readsChangeNothing : Obligations.ReadsChangeNothing := by
  unfold Obligations.ReadsChangeNothing
  intro one two four oneOr twoOr fourOr bit lanes causes master level active origin edit starter refusal seconds quality health
    order ring done k m s h
  have left (p : Part) (timer : Option Nat) : seconds p timer (p.secondsLeft timer) := by
    cases timer with
    | none => rfl
    | some e => exact p.secondsLeft_some e
  have health_eq (l : Link) : health l = [l.healthByte] := by
    rw [← Link.healthByte_eq]
    simp only [health, one, bit, weight_eq]
    rfl
  have order_eq (p : Part) : order p (p.secondsLeft p.hunt.orderTimer) = p.orderBytes p.hunt.outstanding := by
    simp only [order]
    cases p.hunt.outstanding with
    | none => rfl
    | some o =>
      rw [orderBytes_some]
      simp only [one, two, SwitchAction.code_eq]
      rfl
  refine ⟨fun r reply mem => ?_, fun target field => ?_, fun index => ?_, fun p => ⟨length_askStatus p,
      length_askReadMeasurements p, length_askReadBlocks p, rfl, rfl, length_askReadHunt p, fun o some => ?_,
      fun _ => length_askReadRecord, fun _ _ => length_askReadSetting⟩,
    fun p => ⟨_, left p p.posture.silenceTimer, ?_⟩, fun p => ?_, fun p => ?_,
    fun p index => ⟨fun beyond => ?_, fun inside none => ?_, fun f inside found => ?_⟩,
    fun p => ⟨_, left p p.hunt.orderTimer, fun some => ?_, fun none => ?_, ?_⟩, fun p target field => ?_, fun p => ?_,
    fun p => ?_⟩
  · simp only [List.mem_cons, List.not_mem_nil, or_false, Prod.mk.injEq] at mem
    rcases mem with ⟨rfl, rfl⟩ | ⟨rfl, rfl⟩ | ⟨rfl, rfl⟩ | ⟨rfl, rfl⟩ | ⟨rfl, rfl⟩ | ⟨rfl, rfl⟩ | ⟨rfl, rfl⟩ <;>
      exact exec_command_eq h rfl rfl
  · exact exec_command_eq h (r := .readSetting target field) rfl rfl
  · exact exec_command_eq h (r := .readRecord index) rfl rfl
  · rw [askReadHuntOrder, some]
    exact length_orderBytes p o
  · rw [askStatus_eq]
    simp only [one, two, four, oneOr, fourOr, bit, lanes, causes, master, level, active, origin, quality, health_eq,
      weight_eq, SeqState.code_eq, Position.code_eq, ClosePurpose.code_eq, Origin.code_eq, Master.code_eq,
      LockoutReason.code_eq, Active.code_eq, GroupId.code_eq, Level.code_eq, Season.code_eq, HuntState.code_eq,
      Nat.one_mul, done, Reply.done, byte, byteOrNone, bytes2, bytes4, bytes4OrNone, Part.statusFlags, laneCode,
      Intake.quality]
    unfold Part.timerBytes lastTripBytes
    rw [noTrip]
    cases p.seq.lastTrip with
    | none => cases p.seq.state <;> rfl
    | some x => cases p.seq.state <;> rfl
  · rw [askReadMeasurements_eq]
    simp only [one, two, oneOr, twoOr, bit, lanes, quality, weight_eq, StepKind.code_eq, ChannelClass.code_eq,
      MeasureState.code_eq, Nat.one_mul, done, Reply.done, byte, byteOrNone, bytes2, bytes2OrNone, laneCode, Intake.quality]
    rfl
  · simp only [one, two, four, fourOr, bit, weight_eq, BlockKind.code_eq, Owner.code_eq, Nat.one_mul]
    refine congrArg Reply.done (congrArg₂ (· ++ ·) rfl (congrArg (p.entries.flatMap ·) (funext fun e => ?_)))
    have reason : BitVec.ofNat 8 e.reason.toNat = e.reason := BitVec.eq_of_toNat_eq (by simp)
    rw [reason]
    rfl
  · exact askReadRecord_beyond beyond p
  · exact askReadRecord_none inside none
  · intro peak clipped
    rw [askReadRecord_some inside found, Records.head_eq, FaultRecord.bytes_eq]
    simp only [ring, one, two, four, oneOr, twoOr, bit, lanes, causes, master, level, active, origin, peak, clipped,
      weight_eq, Origin.code_eq, Master.code_eq, Active.code_eq, Level.code_eq, OpeningOutcome.code_eq, Nat.one_mul, done,
      Reply.done, byte, byteOrNone, bytes2, bytes4, peakBytes, bytes2OrNone, laneCode, phaseCode, Causes.code, Quad.map,
      peakClipped_eq, List.append_assoc]
  · obtain ⟨o, some⟩ := Option.ne_none_iff_exists'.mp some
    rw [askReadHuntOrder, order_eq, some]
    rfl
  · rw [askReadHuntOrder, none]
    rfl
  · intro q live
    have shown (v : Option Nat) : live v = p.hunt.live v := by
      simp only [live, Hunt.live, HuntState.running_iff]
      rfl
    rw [askReadHunt_eq]
    simp only [shown, one, two, oneOr, twoOr, bit, master, starter, refusal, weight_eq, order_eq, HuntState.code_eq,
      CloseDue.code_eq, HuntOutcome.code_eq, HuntReason.code_eq, Why.code_eq, Master.code_eq, StartedBy.code_eq, Nat.one_mul,
      done, Reply.done, byte, byteOrNone, bytes2, bytes2OrNone, q]
    cases p.hunt.result with
    | none => rfl
    | some x =>
      rw [resultBytes_some]
      dsimp only
      cases x.detail with
      | none => rfl
      | some d => cases d <;> rfl
  · intro within fixed
    refine ⟨fun g named inside => ?_, fun named inside => ?_, fun named silence => ?_, fun out => ?_⟩
    · intro x
      rw [askReadSetting_group (named.trans (GroupId.code_eq g)), readField_within _ inside, Group.shown_field]
      change Reply.done (bytes4OrNone (if x.state = .empty then _ else _)) = _
      cases x.state <;> rfl
    · rw [named, askReadSetting_fallback, readField_within _ inside, fallback_field inside.1 inside.2]
      rfl
    · rw [named, silence]
      rfl
    · rcases out with ⟨record, beyond⟩ | ⟨posture, other⟩ | above
      · obtain ⟨x, read⟩ := askReadSetting_record record field p
        rw [read, readField_beyond x beyond]
        rfl
      · rw [posture, askReadSetting_posture, if_neg fun same : field.toNat = 1 => other (BitVec.eq_of_toNat_eq same)]
        rfl
      · exact askReadSetting_above above field p
  · simp only [one, bit, level, active, edit, weight_eq, EditState.code_eq, GroupId.code_eq, Active.code_eq, Level.code_eq,
      Nat.one_mul]
    rfl
  · simp only [one, oneOr, twoOr, bit, edit, weight_eq, EditState.code_eq, Believed.code_eq, Nat.one_mul]
    rfl

end Sys2Proof.Machine
end Reads
